-- ==== Sys2Proof/Word.lean ====
section
/-! DEFINITION. The word types of the block: a Byte is an unsigned integer 0..255 and a Word an unsigned integer
0..2^32-1 (00_scope.md R15); every quantity is unsigned. -/

namespace Sys2Proof

/-- R15: a Byte is an unsigned integer 0..255. -/
abbrev Byte := BitVec 8

/-- R15: a Word is an unsigned integer 0..2^32-1. -/
abbrev Word := BitVec 32

end Sys2Proof
end

