-- ==== Sys2Proof/Syntax.lean ====
section
/-! DEFINITION. The commands of the block, one constructor per row of the opcode table (30_encoding.md R113, R114). An
operand is the field of the command word it comes from: ARG is 3 bits (a slot number or a configuration id; values out of
range are legal words that the acceptance checks reject, R112), SET is a row set. -/

namespace Sys2Proof

/-- R10: the two row sets, A (candidates) and B (verification). -/
inductive RowSet where
  | a | b
deriving DecidableEq, Repr

/-- R113, R114: the eighteen rows of the table; STEST has one row per scratch width. -/
inductive Instr where
  | nop
  | vclr (arg : BitVec 3)
  | vflip (arg : BitVec 3)
  | vtest (arg : BitVec 3)
  | extract (arg : BitVec 3)
  | place
  | stest24 (arg : BitVec 3)
  | stest16 (arg : BitVec 3)
  | stest8 (arg : BitVec 3)
  | red1 (set : RowSet)
  | red2 (set : RowSet)
  | red3 (set : RowSet)
  | tsum (arg : BitVec 3)
  | zchk (set : RowSet)
  | search
  | resume
  | verify
  | abort
deriving DecidableEq, Repr

end Sys2Proof
end

