-- ==== Sys2Proof/Decode.lean ====
section
/-! DEFINITION. The decoder and the encoder of format C (30_encoding.md R110 to R116). The decoder is total on all 2^32
words; what it refuses is the error BadCmd. The encoder is written from the same field table. -/

namespace Sys2Proof

/-- The five fields of format C (R111). -/
structure Fields where
  op  : Byte
  arg : BitVec 3
  set : BitVec 1
  stg : BitVec 2
  rsv : BitVec 18
deriving DecidableEq, Repr

/-- R112: OP = w[7:0], ARG = w[10:8], SET = w[11], STG = w[13:12], RSV = w[31:14]. -/
def fieldsOf (w : Word) : Fields where
  op := w.extractLsb' 0 8
  arg := w.extractLsb' 8 3
  set := w.extractLsb' 11 1
  stg := w.extractLsb' 12 2
  rsv := w.extractLsb' 14 18

/-- R111: the word that holds the five fields. -/
def wordOf (f : Fields) : Word := f.rsv ++ f.stg ++ f.set ++ f.arg ++ f.op

/-- R111: SET, 0 = A, 1 = B. -/
def rowSetOf (set : BitVec 1) : RowSet := if set = 0#1 then .a else .b

/-- R111: the SET bit of a row set. -/
def rowSetBit : RowSet → BitVec 1
  | .a => 0#1
  | .b => 1#1

/-- R114: a command with no operand field; ARG, SET and STG must be 0. -/
def bare (f : Fields) (i : Instr) : Option Instr :=
  if f.arg = 0#3 ∧ f.set = 0#1 ∧ f.stg = 0#2 then some i else none

/-- R114: a command whose operand is ARG; SET must be 0 and STG must be the row's value. -/
def withArg (f : Fields) (stg : BitVec 2) (i : BitVec 3 → Instr) : Option Instr :=
  if f.set = 0#1 ∧ f.stg = stg then some (i f.arg) else none

/-- R114: a command whose operand is SET; ARG and STG must be 0. -/
def withSet (f : Fields) (i : RowSet → Instr) : Option Instr :=
  if f.arg = 0#3 ∧ f.stg = 0#2 then some (i (rowSetOf f.set)) else none

/-- R166: the three STEST rows; STG = 1, 2, 3 selects width 24, 16, 8 and STG = 0 is illegal. -/
def decodeStest (f : Fields) : Option Instr :=
  if f.stg = 1#2 then withArg f 1#2 .stest24
  else if f.stg = 2#2 then withArg f 2#2 .stest16
  else if f.stg = 3#2 then withArg f 3#2 .stest8
  else none

/-- R113, R114: the sixteen operation codes and the fields each uses; every other OP is illegal (R116). -/
def decodeFields (f : Fields) : Option Instr :=
  if f.op = 0x00#8 then bare f .nop
  else if f.op = 0x01#8 then withArg f 0#2 .vclr
  else if f.op = 0x02#8 then withArg f 0#2 .vflip
  else if f.op = 0x03#8 then withArg f 0#2 .vtest
  else if f.op = 0x04#8 then withArg f 0#2 .extract
  else if f.op = 0x05#8 then bare f .place
  else if f.op = 0x06#8 then decodeStest f
  else if f.op = 0x10#8 then withSet f .red1
  else if f.op = 0x11#8 then withSet f .red2
  else if f.op = 0x12#8 then withSet f .red3
  else if f.op = 0x13#8 then withArg f 0#2 .tsum
  else if f.op = 0x14#8 then withSet f .zchk
  else if f.op = 0x20#8 then bare f .search
  else if f.op = 0x21#8 then bare f .resume
  else if f.op = 0x22#8 then bare f .verify
  else if f.op = 0x2F#8 then bare f .abort
  else none

/-- R112: a word with a nonzero reserved field is illegal; the rest is decided by the other fields. -/
def decode (w : Word) : Option Instr :=
  if (fieldsOf w).rsv = 0#18 then decodeFields (fieldsOf w) else none

/-- R114, R118: the fields of a command's word. -/
def encodeFields : Instr → Fields
  | .nop => ⟨0x00#8, 0#3, 0#1, 0#2, 0#18⟩
  | .vclr arg => ⟨0x01#8, arg, 0#1, 0#2, 0#18⟩
  | .vflip arg => ⟨0x02#8, arg, 0#1, 0#2, 0#18⟩
  | .vtest arg => ⟨0x03#8, arg, 0#1, 0#2, 0#18⟩
  | .extract arg => ⟨0x04#8, arg, 0#1, 0#2, 0#18⟩
  | .place => ⟨0x05#8, 0#3, 0#1, 0#2, 0#18⟩
  | .stest24 arg => ⟨0x06#8, arg, 0#1, 1#2, 0#18⟩
  | .stest16 arg => ⟨0x06#8, arg, 0#1, 2#2, 0#18⟩
  | .stest8 arg => ⟨0x06#8, arg, 0#1, 3#2, 0#18⟩
  | .red1 set => ⟨0x10#8, 0#3, rowSetBit set, 0#2, 0#18⟩
  | .red2 set => ⟨0x11#8, 0#3, rowSetBit set, 0#2, 0#18⟩
  | .red3 set => ⟨0x12#8, 0#3, rowSetBit set, 0#2, 0#18⟩
  | .tsum arg => ⟨0x13#8, arg, 0#1, 0#2, 0#18⟩
  | .zchk set => ⟨0x14#8, 0#3, rowSetBit set, 0#2, 0#18⟩
  | .search => ⟨0x20#8, 0#3, 0#1, 0#2, 0#18⟩
  | .resume => ⟨0x21#8, 0#3, 0#1, 0#2, 0#18⟩
  | .verify => ⟨0x22#8, 0#3, 0#1, 0#2, 0#18⟩
  | .abort => ⟨0x2F#8, 0#3, 0#1, 0#2, 0#18⟩

/-- R118: the word of a command. -/
def encode (i : Instr) : Word := wordOf (encodeFields i)

/-- R114: match and mask of the table's row of a command, column by column. -/
def opcodeRow : Instr → Word × Word
  | .nop => (0x00000000#32, 0xFFFFFFFF#32)
  | .vclr _ => (0x00000001#32, 0xFFFFF8FF#32)
  | .vflip _ => (0x00000002#32, 0xFFFFF8FF#32)
  | .vtest _ => (0x00000003#32, 0xFFFFF8FF#32)
  | .extract _ => (0x00000004#32, 0xFFFFF8FF#32)
  | .place => (0x00000005#32, 0xFFFFFFFF#32)
  | .stest24 _ => (0x00001006#32, 0xFFFFF8FF#32)
  | .stest16 _ => (0x00002006#32, 0xFFFFF8FF#32)
  | .stest8 _ => (0x00003006#32, 0xFFFFF8FF#32)
  | .red1 _ => (0x00000010#32, 0xFFFFF7FF#32)
  | .red2 _ => (0x00000011#32, 0xFFFFF7FF#32)
  | .red3 _ => (0x00000012#32, 0xFFFFF7FF#32)
  | .tsum _ => (0x00000013#32, 0xFFFFF8FF#32)
  | .zchk _ => (0x00000014#32, 0xFFFFF7FF#32)
  | .search => (0x00000020#32, 0xFFFFFFFF#32)
  | .resume => (0x00000021#32, 0xFFFFFFFF#32)
  | .verify => (0x00000022#32, 0xFFFFFFFF#32)
  | .abort => (0x0000002F#32, 0xFFFFFFFF#32)

/-- The instruction the decoder reads from a command whose low `nbits` bits are `w` (every bit above is 0). A command is
one 32-bit Word (R110), so the bits are the Word itself. -/
def decodeTableWord (nbits w : Nat) : Option Instr := decode (BitVec.ofNat 32 (w % 2 ^ nbits))

end Sys2Proof
end

