-- ==== Sys2Proof/Config.lean ====
section
/-! DEFINITION. What is a parameter of the machine and not its state (00_scope.md R11, R13, R23): the four substitution
tables and the external function inverseMix. Both are opaque: no rule depends on a value of them, and no proof can see one. -/

namespace Sys2Proof

/-- R11, R140: the four fixed 256-entry tables S1..S4. -/
inductive Table where
  | s1 | s2 | s3 | s4
deriving DecidableEq, Repr

/-- R11, R58, R141: the tables' contents, total, fixed for the life of the machine, under no further law (log 8). -/
opaque Config.stab : Table → Byte → Byte

/-- R13: the external function inverseMix, total and fixed, under no further law (log 8). -/
opaque Config.imix : Byte → Byte

end Sys2Proof
end

