-- ==== Sys2Proof/Machine/State.lean ====
section
/-! DEFINITION. The state of the block (10_state.md), the reasons a step can stop, and the machine after reset. -/

namespace Sys2Proof.Machine

/-- R36: the PHASE values that occur (11 to 15 never do, log 16). -/
inductive Phase where
  | idle | exec | pPair | pK3 | pK4 | pK5 | vS1 | vS2 | vS3 | vK5 | adv
deriving DecidableEq, Repr

/-- R271: the seven errors (codes 8 to 15 are never recorded, log 16). -/
inductive CmdError where
  | cfgId | badCmd | busy | slot | uninit | range | busyWr
deriving DecidableEq, Repr

/-- R57: the scratch-valid bits of one row set. -/
structure Valid where
  sv24 : Bool
  sv16 : Bool
  sv8  : Bool
deriving DecidableEq, Repr

/-- R10: a slot number; slots 0, 1, 2 are set A and slots 3, 4, 5 are set B. -/
abbrev Slot := Fin 6

/-- R18, R86: a one-bit-wide vector memory, held as the indices whose bit is 1 in strictly rising order (log 6). -/
abbrev Memory := List Nat

/-- R83, R85: a 16-byte block; byte `4c + r` is grid cell (row r, column c). -/
abbrev Block := Vector Byte 16

/-- R22, R300: one turn of the interleaving. A register is named by the port's 5-bit word address (R31). -/
inductive Turn where
  | engine
  | read (reg : BitVec 5)
  | write (reg : BitVec 5) (data : Word)
  | reset
deriving DecidableEq, Repr

/-- R30: everything that is state, and the model's own `turns` and `rdata`. -/
structure State where
  /-- R36: the engine's phase. -/
  phase : Phase
  /-- R34, R55: the last accepted command word. -/
  cmdLatch : Word
  /-- R35, R49. -/
  done : Bool
  /-- R35, R49. -/
  found : Bool
  /-- R35, R49. -/
  aborted : Bool
  /-- R55: an abort request is pending. -/
  abortReq : Bool
  /-- R55: the verification phases run on behalf of VERIFY. -/
  vonly : Bool
  /-- R271, R272: the first error recorded; `none` is code 0. -/
  err : Option CmdError
  /-- R46. -/
  errinfo : Word
  /-- R37. -/
  ieDone : Bool
  /-- R37. -/
  ieErr : Bool
  /-- R38: CFG[2:0]. -/
  configId : BitVec 3
  /-- R38: CFG[15:8]. -/
  tselA : Byte
  /-- R38: CFG[23:16]. -/
  tselB : Byte
  /-- R39: K1 ++ K2 ++ K3 ++ K4. -/
  kg : Word
  /-- R40: K5R[7:0]. -/
  k5 : Byte
  /-- R40: K5R[15:8]. -/
  k5c : Byte
  /-- R40: K5R[23:16]. -/
  k5v : Byte
  /-- R43. -/
  idx : Word
  /-- R44. -/
  result : Word
  /-- R41: the ciphertext block. -/
  ct : Block
  /-- R42: the output key array. -/
  key : Block
  /-- R45. -/
  fpcnt : Word
  /-- R56: slot s has been cleared since reset. -/
  vinit : Vector Bool 6
  /-- R57: set A. -/
  validA : Valid
  /-- R57: set B. -/
  validB : Valid
  /-- R50. -/
  v32 : Vector Memory 6
  /-- R51. -/
  v24 : Vector Memory 6
  /-- R52. -/
  v16 : Vector Memory 6
  /-- R53. -/
  v8 : Vector Memory 6
  /-- The model's own: who moves next (R22, log 1); used up, the engine alone moves. -/
  turns : List Turn
  /-- The model's own: the Word the latest host read returned (R31, log 3). -/
  rdata : Word
deriving DecidableEq, Repr

/-- The model's own stops. Each is met only in a state that no run from reset reaches (log 12); all are safe. -/
inductive Fault where
  /-- Raised by the engine's turn in a phase other than IDLE when CMDLATCH holds no legal word (R55: it holds an accepted
  one). Safe. -/
  | latchIllegal
  /-- Raised by the EXEC step of SEARCH, RESUME or VERIFY: R221 never sends them to EXEC and R223 gives them no
  pseudocode. Safe. -/
  | noExecStep
  /-- Raised by the EXEC step of a simple command whose acceptance check fails now with that error: R223 relies on the
  check still holding. Safe. -/
  | precondition (e : CmdError)
deriving DecidableEq, Repr

/-- What the model refuses. -/
inductive Refusal where
  /-- Raised by an arm of exec whose instruction has no meaning yet. Safe. No arm uses it. -/
  | notModelled (mnemonic : String)
deriving DecidableEq, Repr

/-- R60, R61, R62, R301: the machine right after reset; the vectors' contents, which R62 leaves open, are all-zero
(log 7). -/
def State.reset : State where
  phase := .idle
  cmdLatch := 0#32
  done := false
  found := false
  aborted := false
  abortReq := false
  vonly := false
  err := none
  errinfo := 0#32
  ieDone := false
  ieErr := false
  configId := 0#3
  tselA := 0xE4#8
  tselB := 0xE4#8
  kg := 0#32
  k5 := 0#8
  k5c := 0#8
  k5v := 0#8
  idx := 0#32
  result := 0#32
  ct := Vector.replicate 16 0#8
  key := Vector.replicate 16 0#8
  fpcnt := 0#32
  vinit := Vector.replicate 6 false
  validA := ⟨false, false, false⟩
  validB := ⟨false, false, false⟩
  v32 := Vector.replicate 6 []
  v24 := Vector.replicate 6 []
  v16 := Vector.replicate 6 []
  v8 := Vector.replicate 6 []
  turns := []
  rdata := 0#32

end Sys2Proof.Machine
end

