-- ==== Sys2Proof/Machine/Ops.lean ====
section
/-! DEFINITION. The named operations over the vector memories and the turns, recording an error (this block's exception
entry, 60_exceptions.md R272) and clearing it (its return, R274), and the common acceptance and completion of commands. -/

namespace Sys2Proof.Machine

/-- The outcome of a step of this machine. -/
abbrev Result := Host.Outcome State Fault Refusal

/-- A memory of width `w` in canonical form: indices strictly rising, each below 2^w (log 6). -/
abbrev Memory.wf (w : Nat) (m : Memory) : Prop := m.Pairwise (· < ·) ∧ ∀ i ∈ m, i < 2 ^ w

/-- R18: ZERO, the vector whose every bit is 0; also `MemFill(M, 0)` of R20. -/
def memZero : Memory := []

/-- R20: `MemRead(M, i, 1)`. -/
def memRead (m : Memory) (i : Nat) : Bool := m.elem i

/-- The bit at `i` becomes 1. -/
def setBit (i : Nat) : Memory → Memory
  | [] => [i]
  | j :: m => if i < j then i :: j :: m else if i = j then j :: m else j :: setBit i m

/-- The bit at `i` becomes 0. -/
def clearBit (i : Nat) (m : Memory) : Memory := m.filter (fun j => j != i)

/-- R20: `MemWrite(M, i, 1, b)`. -/
def memWrite (m : Memory) (i : Nat) (b : Bool) : Memory := if b then setBit i m else clearBit i m

/-- R18, R162: `V[i] <- V[i] ⊕ 1`, a read and then a write of the same bit. -/
def memFlip (m : Memory) (i : Nat) : Memory := memWrite m i (!memRead m i)

/-- R35: BUSY is 1 exactly when PHASE is not IDLE. -/
def busy (s : State) : Bool := s.phase != .idle

/-- The two agents of R22. -/
inductive Agent where
  | host | engine
deriving DecidableEq, Repr

/-- R22: whose turn it is; when the turns are used up the engine moves (log 2). -/
def actor (s : State) : Agent :=
  match s.turns with
  | .read _ :: _ => .host
  | .write _ _ :: _ => .host
  | _ => .engine

/-- The turn that was taken is over. -/
def endTurn (s : State) : State := { s with turns := s.turns.tail }

/-- R272: `raise E(info)`: the first error is recorded and kept; nothing else changes. -/
def raise (e : CmdError) (info : Word) (s : State) : State :=
  match s.err with
  | none => { s with err := some e, errinfo := info }
  | some _ => s

/-- R274: the host clears the error record. -/
def clearError (s : State) : State := { s with err := none, errinfo := 0#32 }

/-- R221: what the acceptance of every command does, and where every command but SEARCH, RESUME and VERIFY goes. -/
def accept (w : Word) (s : State) : State :=
  { s with cmdLatch := w, done := false, vonly := false, phase := .exec }

/-- R223, R224: `finish`, the completion of a command. -/
def finish (s : State) : State := { s with abortReq := false, done := true, phase := .idle }

/-- R241: an ABORT written while BUSY = 1; only a running SEARCH or RESUME takes the request. -/
def requestAbort (s : State) : State :=
  if s.phase = .exec ∨ s.vonly = true then s else { s with abortReq := true }

/-- R280: the handling of a legal word `w` written to CMD by the host, given the first failing check of steps 3 to 6 and
what the command's acceptance adds to R221. -/
def submit (w : Word) (failing : Option CmdError) (enter : State → State) (s : State) : State :=
  if busy s then raise .busy w s
  else match failing with
    | some e => raise e w s
    | none => enter (accept w s)

/-- R300, log 14: a pulse of the reset input. -/
def resetPulse (s : State) : State := { State.reset with turns := s.turns, rdata := s.rdata }

/-- `f` applied to the next state of an outcome. -/
def mapNext (f : State → State) : Result → Result
  | .next s => .next (f s)
  | .fault r => .fault r
  | .refused r => .refused r

end Sys2Proof.Machine
end

