-- ==== Sys2Proof/Machine/Flags.lean ====
section
/-! DEFINITION. The status flags: the valid bits and who writes them (10_state.md R49, R56, R57), the STATUS word (R35), its
write-one-to-clear bits, and the interrupt output (60_exceptions.md R276). -/

namespace Sys2Proof.Machine

/-- R57: the valid bits of a set. -/
def validOf (x : RowSet) (s : State) : Valid :=
  match x with
  | .a => s.validA
  | .b => s.validB

/-- R57: write the valid bits of a set. -/
def setValid (x : RowSet) (v : Valid) (s : State) : State :=
  match x with
  | .a => { s with validA := v }
  | .b => { s with validB := v }

/-- R57: stage 1 on the set completes. -/
def afterStage1 : Valid := ⟨true, false, false⟩

/-- R57: stage 2 on the set completes. -/
def afterStage2 (v : Valid) : Valid := ⟨v.sv24, true, false⟩

/-- R57: stage 3 on the set completes. -/
def afterStage3 (v : Valid) : Valid := ⟨v.sv24, v.sv16, true⟩

/-- R57: VCLR or VFLIP on a slot of the set completes. -/
def afterLoad : Valid := ⟨false, false, false⟩

/-- R36: the 4-bit code of a phase. -/
def phaseCode : Phase → BitVec 4
  | .idle => 0#4
  | .exec => 1#4
  | .pPair => 2#4
  | .pK3 => 3#4
  | .pK4 => 4#4
  | .pK5 => 5#4
  | .vS1 => 6#4
  | .vS2 => 7#4
  | .vS3 => 8#4
  | .vK5 => 9#4
  | .adv => 10#4

/-- R271: the 4-bit code of an error. -/
def errorCode : CmdError → BitVec 4
  | .cfgId => 1#4
  | .badCmd => 2#4
  | .busy => 3#4
  | .slot => 4#4
  | .uninit => 5#4
  | .range => 6#4
  | .busyWr => 7#4

/-- R35: the ERR field. -/
def errField (s : State) : BitVec 4 :=
  match s.err with
  | none => 0#4
  | some e => errorCode e

/-- R35: the VINIT field, bit s for slot s. -/
def vinitField (s : State) : BitVec 6 :=
  BitVec.ofBool s.vinit[5] ++ BitVec.ofBool s.vinit[4] ++ BitVec.ofBool s.vinit[3]
    ++ BitVec.ofBool s.vinit[2] ++ BitVec.ofBool s.vinit[1] ++ BitVec.ofBool s.vinit[0]

/-- R35: the three valid bits of a set as they stand in STATUS, SV24 lowest. -/
def validField (v : Valid) : BitVec 3 := BitVec.ofBool v.sv8 ++ BitVec.ofBool v.sv16 ++ BitVec.ofBool v.sv24

/-- R35: the STATUS word, bit 31 first. -/
def statusWord (s : State) : Word :=
  0#4 ++ validField s.validB ++ validField s.validA ++ vinitField s ++ phaseCode s.phase ++ errField s ++ 0#2
    ++ BitVec.ofBool s.vonly ++ BitVec.ofBool s.abortReq ++ BitVec.ofBool s.aborted ++ BitVec.ofBool s.found
    ++ BitVec.ofBool s.done ++ BitVec.ofBool (busy s)

/-- R35: a host write of 1 to bit 1 clears DONE, of 1 to bit 8 clears ERR and ERRINFO. -/
def statusWrite (d : Word) (s : State) : State :=
  let t := if d[1] then { s with done := false } else s
  if d[8] then clearError t else t

/-- R276: the interrupt output. -/
def irq (s : State) : Bool := (s.ieDone && s.done) || (s.ieErr && s.err.isSome)

end Sys2Proof.Machine
end

