-- ==== Sys2Proof/WellFormed.lean ====
section
/-! DEFINITION. Well-formed commands: those whose ARG operand is in the range its rule documents (30_encoding.md R111,
R112). Every Instr can be encoded; an ill-formed one is a legal word that R280 rejects with Slot or CfgId. -/

namespace Sys2Proof

/-- R10, R111: a slot number is 0..5. -/
def slotInRange (arg : BitVec 3) : Bool := arg.toNat < 6

/-- R142: a configuration id is one of 1, 2, 3, 4. -/
def idInRange (id : BitVec 3) : Bool := 1 ≤ id.toNat && id.toNat ≤ 4

/-- R112: the operands of a legal word are in range. -/
def Instr.wellFormed : Instr → Bool
  | .nop => true
  | .vclr arg => slotInRange arg
  | .vflip arg => slotInRange arg
  | .vtest arg => slotInRange arg
  | .extract arg => idInRange arg
  | .place => true
  | .stest24 arg => slotInRange arg
  | .stest16 arg => slotInRange arg
  | .stest8 arg => slotInRange arg
  | .red1 _ => true
  | .red2 _ => true
  | .red3 _ => true
  | .tsum arg => slotInRange arg
  | .zchk _ => true
  | .search => true
  | .resume => true
  | .verify => true
  | .abort => true

end Sys2Proof
end

