-- ==== Sys2Proof/Machine/Operands.lean ====
section
/-! DEFINITION. The operands of the commands (30_encoding.md R115): slots and sets, configuration ids and the position table
(40_tables_extract_place.md R143), key bytes, table selection (10_state.md R38), and the operand checks of 60_exceptions.md
R271 and R280. -/

namespace Sys2Proof.Machine

/-- R112, R271: the slot ARG names; 6 and 7 name none. -/
def slotOf (arg : BitVec 3) : Option Slot :=
  if h : arg.toNat < 6 then some ⟨arg.toNat, h⟩ else none

/-- R10: slot `s` belongs to set `s div N_DS`. -/
def setOfSlot (k : Slot) : RowSet := if k.val < 3 then .a else .b

/-- R115: the slot of row `r` of set `X` is `3·X + r`. -/
def slotAt (x : RowSet) (r : Fin 3) : Slot :=
  match x with
  | .a => ⟨r.val, by omega⟩
  | .b => ⟨3 + r.val, by omega⟩

/-- R143: `POS(id, j) = 4·((id − 1 − j) mod 4) + j` (log 9). -/
def pos (id : BitVec 3) (j : Fin 4) : Fin 16 := ⟨4 * ((id.toNat + 3 - j.val) % 4) + j.val, by omega⟩

/-- R144, R84: `extract` as a 32-bit index, the first extracted byte most significant. -/
def extractIndex (blk : Block) (id : BitVec 3) : Word :=
  blk[pos id 0] ++ blk[pos id 1] ++ blk[pos id 2] ++ blk[pos id 3]

/-- R17, R39: byte `j` of a 32-bit quadruple, `j = 0` the most significant. -/
def quadByte (q : Word) (j : Fin 4) : Byte := q.extractLsb' (8 * (3 - j.val)) 8

/-- R145: `place` of the four bytes of `q`; the other 12 bytes are left as they are. -/
def placeQuad (q : Word) (id : BitVec 3) (blk : Block) : Block :=
  (((blk.set (pos id 0) (quadByte q 0)).set (pos id 1) (quadByte q 1)).set (pos id 2) (quadByte q 2)).set
    (pos id 3) (quadByte q 3)

/-- R39. -/
def State.k1 (s : State) : Byte := quadByte s.kg 0
/-- R39. -/
def State.k2 (s : State) : Byte := quadByte s.kg 1
/-- R39. -/
def State.k3 (s : State) : Byte := quadByte s.kg 2
/-- R39. -/
def State.k4 (s : State) : Byte := quadByte s.kg 3

/-- R38: field value 0 selects S1, 1 selects S2, 2 selects S3, 3 selects S4. -/
def tableOf (t : BitVec 2) : Table :=
  if t = 0#2 then .s1 else if t = 1#2 then .s2 else if t = 2#2 then .s3 else .s4

/-- R38: TSEL_X, the set's four table fields. -/
def tselOf (x : RowSet) (s : State) : Byte :=
  match x with
  | .a => s.tselA
  | .b => s.tselB

/-- R38, R21: `T(X, j) = STAB(x[CFG].TSEL_X[j] + 1)`. -/
def tableFor (x : RowSet) (j : Fin 4) (s : State) : Byte → Byte :=
  Config.stab (tableOf ((tselOf x s).extractLsb' (2 * j.val) 2))

/-- R166: the three scratch widths. -/
inductive Scratch where
  | w24 | w16 | w8
deriving DecidableEq, Repr

/-- R166: the width in bits of the index. -/
def scratchWidth : Scratch → Nat
  | .w24 => 24
  | .w16 => 16
  | .w8 => 8

/-- R51, R52, R53: the scratch vectors of a width. -/
def scratchOf (w : Scratch) (s : State) : Vector Memory 6 :=
  match w with
  | .w24 => s.v24
  | .w16 => s.v16
  | .w8 => s.v8

/-- R57: the valid bit of a width. -/
def validAt (w : Scratch) (v : Valid) : Bool :=
  match w with
  | .w24 => v.sv24
  | .w16 => v.sv16
  | .w8 => v.sv8

/-- R271: `VINIT[ARG]`. -/
def argInit (arg : BitVec 3) (s : State) : Bool :=
  match slotOf arg with
  | some k => s.vinit[k]
  | none => false

/-- R271: the valid bit of a width for the set of the slot ARG names. -/
def argValid (w : Scratch) (arg : BitVec 3) (s : State) : Bool :=
  match slotOf arg with
  | some k => validAt w (validOf (setOfSlot k) s)
  | none => false

/-- R271: `VINIT[3X + r] = 1` for every row r. -/
def setInit (x : RowSet) (s : State) : Bool :=
  s.vinit[slotAt x 0] && s.vinit[slotAt x 1] && s.vinit[slotAt x 2]

/-- R280: the error of the first check that fails; a check is the condition under which it fails, and its error. -/
def firstFailing : List (Bool × CmdError) → Option CmdError
  | [] => none
  | (fails, e) :: rest => if fails then some e else firstFailing rest

/-- `f` on the slot ARG names; without one the state is left alone (the Slot check has refused the command). -/
def onSlot (arg : BitVec 3) (f : Slot → State → State) (s : State) : State :=
  match slotOf arg with
  | some k => f k s
  | none => s

/-- R164, R166, R204: `zext_32` of a bit. -/
def wordOfBool (b : Bool) : Word := if b then 1#32 else 0#32

end Sys2Proof.Machine
end

