-- ==== Sys2Proof/Machine/Pipeline.lean ====
section
/-! DEFINITION. The reduction pipeline as operations over vectors and over the rows of a set: the three stages
(42_reduce.md R181, R186, R191) and the total sum and zero condition (43_final_check.md R201, R203). -/

namespace Sys2Proof.Machine

/-- R180, R182, R97: the vector that accumulates, from all-zero, one flip at `f i` for every set bit `i` of `m` (log 11). -/
def accumulate (f : Nat → Nat) (m : Memory) : Memory := m.foldl (fun out i => memFlip out (f i)) memZero

/-- R181: the output index `(x << 16) | t` of the input index `i = (a, b, t)`. -/
def fold1 (k1 k2 : Byte) (ta tb : Byte → Byte) (i : Nat) : Nat :=
  let w := BitVec.ofNat 32 i
  ((ta (w.extractLsb' 24 8 ^^^ k1) ^^^ tb (w.extractLsb' 16 8 ^^^ k2)) ++ w.extractLsb' 0 16 : BitVec 24).toNat

/-- R186: the output index `(y << 8) | d` of the input index `i = (x, c, d)`. -/
def fold2 (k3 : Byte) (tc : Byte → Byte) (i : Nat) : Nat :=
  let w := BitVec.ofNat 24 i
  ((w.extractLsb' 16 8 ^^^ tc (w.extractLsb' 8 8 ^^^ k3)) ++ w.extractLsb' 0 8 : BitVec 16).toNat

/-- R191: the output index `z` of the input index `i = (y, d)`. -/
def fold3 (k4 : Byte) (td : Byte → Byte) (i : Nat) : Nat :=
  let w := BitVec.ofNat 16 i
  (w.extractLsb' 8 8 ^^^ td (w.extractLsb' 0 8 ^^^ k4)).toNat

/-- R182. -/
def reduce1 (v : Memory) (k1 k2 : Byte) (ta tb : Byte → Byte) : Memory := accumulate (fold1 k1 k2 ta tb) v

/-- R187. -/
def reduce2 (v : Memory) (k3 : Byte) (tc : Byte → Byte) : Memory := accumulate (fold2 k3 tc) v

/-- R192. -/
def reduce3 (v : Memory) (k4 : Byte) (td : Byte → Byte) : Memory := accumulate (fold3 k4 td) v

/-- R201: the XOR over the set bits `z` of `inverseMix(z ⊕ k5)`. -/
def totalSum (imix : Byte → Byte) (v : Memory) (k5 : Byte) : Byte :=
  v.foldl (fun sum z => sum ^^^ imix (BitVec.ofNat 8 z ^^^ k5)) 0#8

/-- R180: the vectors `out` with every row of the set replaced by `f` of that row of `inp`. -/
def mapRows (x : RowSet) (f : Memory → Memory) (inp out : Vector Memory 6) : Vector Memory 6 :=
  Vector.ofFn fun k : Slot => if setOfSlot k = x then f inp[k] else out[k]

/-- R181: stage 1 on all rows of a set. -/
def stage1 (x : RowSet) (s : State) : State :=
  setValid x afterStage1
    { s with v24 := mapRows x (fun v => reduce1 v s.k1 s.k2 (tableFor x 0 s) (tableFor x 1 s)) s.v32 s.v24 }

/-- R186: stage 2 on all rows of a set. -/
def stage2 (x : RowSet) (s : State) : State :=
  setValid x (afterStage2 (validOf x s))
    { s with v16 := mapRows x (fun v => reduce2 v s.k3 (tableFor x 2 s)) s.v24 s.v16 }

/-- R191: stage 3 on all rows of a set. -/
def stage3 (x : RowSet) (s : State) : State :=
  setValid x (afterStage3 (validOf x s))
    { s with v8 := mapRows x (fun v => reduce3 v s.k4 (tableFor x 3 s)) s.v16 s.v8 }

/-- R203: the total sum of row `r` of a set is zero. -/
def rowZero (x : RowSet) (k5 : Byte) (s : State) (r : Fin 3) : Bool :=
  totalSum Config.imix s.v8[slotAt x r] k5 == 0#8

/-- R203: `zc(X, k5)`. -/
def zeroCondition (x : RowSet) (k5 : Byte) (s : State) : Bool :=
  rowZero x k5 s 0 && rowZero x k5 s 1 && rowZero x k5 s 2

end Sys2Proof.Machine
end

