-- ==== Sys2Proof/Machine/Controller.lean ====
section
/-! DEFINITION. The engine's steps (44_search.md): the step table of the controller (R224), one definition per phase, and the
frame shared by every simple command: its host's turn (R280, R221) and its engine's turn (R223). -/

namespace Sys2Proof.Machine

/-- R45, R224: `sat(n + 1)`. -/
def saturatingSucc (n : Word) : Word := if n = 0xFFFFFFFF#32 then n else n + 1#32

/-- R224, P_PAIR. -/
def pPairStep (s : State) : State :=
  if s.abortReq then finish { s with aborted := true, result := 0#32 }
  else { stage1 .a s with phase := .pK3 }

/-- R224, P_K3. -/
def pK3Step (s : State) : State := { stage2 .a s with phase := .pK4 }

/-- R224, P_K4. -/
def pK4Step (s : State) : State := { stage3 .a s with k5 := 0#8, phase := .pK5 }

/-- R224, P_K5. -/
def pK5Step (s : State) : State :=
  if zeroCondition .a s.k5 s then { s with k5c := s.k5, phase := .vS1 }
  else if s.k5 < 0xFF#8 then { s with k5 := s.k5 + 1#8 }
  else { s with phase := .adv }

/-- R224, V_S1. -/
def vS1Step (s : State) : State := { stage1 .b s with phase := .vS2 }

/-- R224, V_S2. -/
def vS2Step (s : State) : State := { stage2 .b s with phase := .vS3 }

/-- R224, V_S3. -/
def vS3Step (s : State) : State := { stage3 .b s with k5v := 0#8, phase := .vK5 }

/-- R224, R235: the verified quadruple is placed in the key array. -/
def placeFound (s : State) : State :=
  { s with key := placeQuad s.kg s.configId s.key, found := true, result := 1#32 }

/-- R224, V_K5. -/
def vK5Step (s : State) : State :=
  if zeroCondition .b s.k5v s then
    if s.vonly then finish { s with result := 1#32 } else finish (placeFound s)
  else if s.k5v < 0xFF#8 then { s with k5v := s.k5v + 1#8 }
  else if s.vonly then finish { s with result := 0#32 }
  else { s with fpcnt := saturatingSucc s.fpcnt, phase := .adv }

/-- R224, ADV: the phase that goes on with the quadruple `q`, by the highest byte that changed. -/
def advPhase (q : Word) : Phase :=
  if quadByte q 3 ≠ 0#8 then .pK4 else if quadByte q 2 ≠ 0#8 then .pK3 else .pPair

/-- R224, ADV. -/
def advStep (s : State) : State :=
  if s.kg = 0xFFFFFFFF#32 then finish { s with result := 0#32 }
  else { s with kg := s.kg + 1#32, phase := advPhase (s.kg + 1#32) }

/-- R224: the step enabled in each phase of the controller; IDLE and EXEC are not phases of the controller. -/
def controllerStep (s : State) : State :=
  match s.phase with
  | .idle => s
  | .exec => s
  | .pPair => pPairStep s
  | .pK3 => pK3Step s
  | .pK4 => pK4Step s
  | .pK5 => pK5Step s
  | .vS1 => vS1Step s
  | .vS2 => vS2Step s
  | .vS3 => vS3Step s
  | .vK5 => vK5Step s
  | .adv => advStep s

/-- R22, R223, R224: the engine's turn while a command runs: no step in IDLE, the command's own step in EXEC, the step
table in every other phase (log 13). -/
def engineStep (execStep : State → Result) (s : State) : Result :=
  match s.phase with
  | .idle => .next s
  | .exec => execStep s
  | _ => .next (controllerStep s)

/-- R223: the EXEC step of a simple command, whose acceptance checks still hold (log 12). -/
def simpleExec (failing : State → Option CmdError) (effect : State → State) (s : State) : Result :=
  match failing s with
  | none => .next (finish (effect s))
  | some e => .fault (.precondition e)

/-- R221, R223, R280: a simple command with word `w`: on the host's turn its submission, on the engine's its execution
(log 5). -/
def simpleCommand (w : Word) (failing : State → Option CmdError) (effect : State → State) (s : State) : Result :=
  match actor s with
  | .host => .next (submit w (failing s) id s)
  | .engine => engineStep (simpleExec failing effect) s

/-- R221, R224, R280: SEARCH, RESUME and VERIFY: on the host's turn the submission, on the engine's the step table. -/
def searchCommand (w : Word) (failing : State → Option CmdError) (enter : State → State) (s : State) : Result :=
  match actor s with
  | .host => .next (submit w (failing s) enter s)
  | .engine => engineStep (fun _ => .fault .noExecStep) s

end Sys2Proof.Machine
end

