-- ==== Sys2Proof/Machine/BlockBytes.lean ====
section
/-! DEFINITION. The commands of 40_tables_extract_place.md: NOP, EXTRACT, PLACE. -/

namespace Sys2Proof.Machine

/-- R150: NOP has no acceptance condition but Busy and no effect but the common completion. -/
def execNop (s : State) : Result := simpleCommand (encode .nop) (fun _ => none) id s

/-- R146, R271: EXTRACT is rejected with CfgId for an id that is not 1, 2, 3 or 4. -/
def extractFailing (arg : BitVec 3) (_ : State) : Option CmdError := firstFailing [(!idInRange arg, .cfgId)]

/-- R146: IDX gets the four bytes of CT at the positions of the id in ARG. -/
def extractEffect (arg : BitVec 3) (s : State) : State := { s with idx := extractIndex s.ct arg }

/-- R146: EXTRACT id. -/
def execExtract (arg : BitVec 3) (s : State) : Result :=
  simpleCommand (encode (.extract arg)) (extractFailing arg) (extractEffect arg) s

/-- R271: the id of PLACE, SEARCH and RESUME is CFG.CONFIG_ID. -/
def configIdBad (s : State) : Bool := !idInRange s.configId

/-- R148, R271: PLACE is rejected with CfgId while CONFIG_ID is not 1, 2, 3 or 4. -/
def placeFailing (s : State) : Option CmdError := firstFailing [(configIdBad s, .cfgId)]

/-- R148: K1 to K4 go to the four positions of CONFIG_ID in KEY. -/
def placeEffect (s : State) : State := { s with key := placeQuad s.kg s.configId s.key }

/-- R148: PLACE. -/
def execPlace (s : State) : Result := simpleCommand (encode .place) placeFailing placeEffect s

end Sys2Proof.Machine
end

