-- ==== Sys2Proof/Machine/FinalCheck.lean ====
section
/-! DEFINITION. The commands of 43_final_check.md: TSUM, ZCHK. -/

namespace Sys2Proof.Machine

/-- R202, R271. -/
def tsumFailing (arg : BitVec 3) (s : State) : Option CmdError :=
  firstFailing [(!slotInRange arg, .slot), (!argValid .w8 arg s, .uninit)]

/-- R202: RESULT gets the zero-extended total sum of the slot at K5. -/
def sumSlot (k : Slot) (s : State) : State :=
  { s with result := (totalSum Config.imix s.v8[k] s.k5).setWidth 32 }

/-- R202: TSUM s. -/
def execTsum (arg : BitVec 3) (s : State) : Result :=
  simpleCommand (encode (.tsum arg)) (tsumFailing arg) (onSlot arg sumSlot) s

/-- R204, R271. -/
def zchkFailing (x : RowSet) (s : State) : Option CmdError := firstFailing [(!(validOf x s).sv8, .uninit)]

/-- R204: RESULT gets 1 if the zero condition of the set holds at K5, else 0. -/
def checkSet (x : RowSet) (s : State) : State := { s with result := wordOfBool (zeroCondition x s.k5 s) }

/-- R204: ZCHK X. -/
def execZchk (x : RowSet) (s : State) : Result :=
  simpleCommand (encode (.zchk x)) (zchkFailing x) (checkSet x) s

end Sys2Proof.Machine
end

