-- ==== Sys2Proof/Machine/Reduce.lean ====
section
/-! DEFINITION. The commands of 42_reduce.md: RED1, RED2, RED3. -/

namespace Sys2Proof.Machine

/-- R181, R271: every row of the set must have been cleared since reset. -/
def red1Failing (x : RowSet) (s : State) : Option CmdError := firstFailing [(!setInit x s, .uninit)]

/-- R181: RED1 X. -/
def execRed1 (x : RowSet) (s : State) : Result :=
  simpleCommand (encode (.red1 x)) (red1Failing x) (stage1 x) s

/-- R186, R271. -/
def red2Failing (x : RowSet) (s : State) : Option CmdError := firstFailing [(!(validOf x s).sv24, .uninit)]

/-- R186: RED2 X. -/
def execRed2 (x : RowSet) (s : State) : Result :=
  simpleCommand (encode (.red2 x)) (red2Failing x) (stage2 x) s

/-- R191, R271. -/
def red3Failing (x : RowSet) (s : State) : Option CmdError := firstFailing [(!(validOf x s).sv16, .uninit)]

/-- R191: RED3 X. -/
def execRed3 (x : RowSet) (s : State) : Result :=
  simpleCommand (encode (.red3 x)) (red3Failing x) (stage3 x) s

end Sys2Proof.Machine
end

