-- ==== Sys2Proof/Machine/Search.lean ====
section
/-! DEFINITION. The commands of the key-search controller (44_search.md): SEARCH, RESUME, VERIFY, ABORT. -/

namespace Sys2Proof.Machine

/-- R230, R271: the id is checked before the six slots. -/
def searchFailing (s : State) : Option CmdError :=
  firstFailing [(configIdBad s, .cfgId), (!(setInit .a s && setInit .b s), .uninit)]

/-- R221, SEARCH: KG, K5R and FPCNT are zeroed, the old result flags cleared. -/
def enterSearch (s : State) : State :=
  { s with kg := 0#32, k5 := 0#8, k5c := 0#8, k5v := 0#8, fpcnt := 0#32, found := false, aborted := false,
           phase := .pPair }

/-- R230: SEARCH. -/
def execSearch (s : State) : Result := searchCommand (encode .search) searchFailing enterSearch s

/-- R238, R271: the same checks as SEARCH. -/
def resumeFailing (s : State) : Option CmdError :=
  firstFailing [(configIdBad s, .cfgId), (!(setInit .a s && setInit .b s), .uninit)]

/-- R221, RESUME: K3, K4 and K5 are zeroed; K1, K2, K5C, K5V and FPCNT keep their values. -/
def enterResume (s : State) : State :=
  { s with kg := s.k1 ++ s.k2 ++ 0#16, k5 := 0#8, found := false, aborted := false, phase := .pPair }

/-- R238: RESUME. -/
def execResume (s : State) : Result := searchCommand (encode .resume) resumeFailing enterResume s

/-- R239, R271: the three slots of set B must have been cleared; CONFIG_ID is not checked. -/
def verifyFailing (s : State) : Option CmdError := firstFailing [(!setInit .b s, .uninit)]

/-- R221, VERIFY. -/
def enterVerify (s : State) : State := { s with vonly := true, phase := .vS1 }

/-- R239: VERIFY. -/
def execVerify (s : State) : Result := searchCommand (encode .verify) verifyFailing enterVerify s

/-- R241: ABORT: while BUSY = 1 it is a request; while idle it is accepted and completed like NOP. -/
def execAbort (s : State) : Result :=
  match actor s with
  | .host => .next (if busy s then requestAbort s else accept (encode .abort) s)
  | .engine => engineStep (simpleExec (fun _ => none) id) s

end Sys2Proof.Machine
end

