-- ==== Sys2Proof/Machine/VectorMemory.lean ====
section
/-! DEFINITION. The commands of 41_vector_memory.md: VCLR, VFLIP, VTEST and the three widths of STEST. -/

namespace Sys2Proof.Machine

/-- R161, R271. -/
def vclrFailing (arg : BitVec 3) (_ : State) : Option CmdError := firstFailing [(!slotInRange arg, .slot)]

/-- R161: the slot is zero-filled, is initialised, and its set's scratch is no longer valid. -/
def clearSlot (k : Slot) (s : State) : State :=
  setValid (setOfSlot k) afterLoad { s with v32 := s.v32.set k memZero, vinit := s.vinit.set k true }

/-- R161: VCLR s. -/
def execVclr (arg : BitVec 3) (s : State) : Result :=
  simpleCommand (encode (.vclr arg)) (vclrFailing arg) (onSlot arg clearSlot) s

/-- R162, R271. -/
def vflipFailing (arg : BitVec 3) (s : State) : Option CmdError :=
  firstFailing [(!slotInRange arg, .slot), (!argInit arg s, .uninit)]

/-- R162: the bit of the slot at IDX is flipped, and its set's scratch is no longer valid. -/
def flipSlot (k : Slot) (s : State) : State :=
  setValid (setOfSlot k) afterLoad { s with v32 := s.v32.set k (memFlip s.v32[k] s.idx.toNat) }

/-- R162: VFLIP s. -/
def execVflip (arg : BitVec 3) (s : State) : Result :=
  simpleCommand (encode (.vflip arg)) (vflipFailing arg) (onSlot arg flipSlot) s

/-- R164, R271. -/
def vtestFailing (arg : BitVec 3) (s : State) : Option CmdError :=
  firstFailing [(!slotInRange arg, .slot), (!argInit arg s, .uninit)]

/-- R164: RESULT gets the bit of the slot at IDX. -/
def testSlot (k : Slot) (s : State) : State := { s with result := wordOfBool (memRead s.v32[k] s.idx.toNat) }

/-- R164: VTEST s. -/
def execVtest (arg : BitVec 3) (s : State) : Result :=
  simpleCommand (encode (.vtest arg)) (vtestFailing arg) (onSlot arg testSlot) s

/-- R166, R168, R271: Slot, then Uninit, then Range when IDX is 2^W or more. -/
def stestFailing (w : Scratch) (arg : BitVec 3) (s : State) : Option CmdError :=
  firstFailing [(!slotInRange arg, .slot), (!argValid w arg s, .uninit),
    (decide (2 ^ scratchWidth w ≤ s.idx.toNat), .range)]

/-- R166: RESULT gets the bit of the slot's scratch vector at IDX. -/
def testScratch (w : Scratch) (k : Slot) (s : State) : State :=
  { s with result := wordOfBool (memRead (scratchOf w s)[k] s.idx.toNat) }

/-- R166: STEST 24, s. -/
def execStest24 (arg : BitVec 3) (s : State) : Result :=
  simpleCommand (encode (.stest24 arg)) (stestFailing .w24 arg) (onSlot arg (testScratch .w24)) s

/-- R166: STEST 16, s. -/
def execStest16 (arg : BitVec 3) (s : State) : Result :=
  simpleCommand (encode (.stest16 arg)) (stestFailing .w16 arg) (onSlot arg (testScratch .w16)) s

/-- R166: STEST 8, s. -/
def execStest8 (arg : BitVec 3) (s : State) : Result :=
  simpleCommand (encode (.stest8 arg)) (stestFailing .w8 arg) (onSlot arg (testScratch .w8)) s

end Sys2Proof.Machine
end

