-- ==== Sys2Proof/Machine/Dispatch.lean ====
section
/-! DEFINITION. The meaning of every command, by constructor. -/

namespace Sys2Proof.Machine

def exec (i : Instr) (s : State) : Host.Outcome State Fault Refusal :=
  match i with
  | .nop => Sys2Proof.Machine.execNop s
  | .vclr arg => Sys2Proof.Machine.execVclr arg s
  | .vflip arg => Sys2Proof.Machine.execVflip arg s
  | .vtest arg => Sys2Proof.Machine.execVtest arg s
  | .extract arg => Sys2Proof.Machine.execExtract arg s
  | .place => Sys2Proof.Machine.execPlace s
  | .stest24 arg => Sys2Proof.Machine.execStest24 arg s
  | .stest16 arg => Sys2Proof.Machine.execStest16 arg s
  | .stest8 arg => Sys2Proof.Machine.execStest8 arg s
  | .red1 x => Sys2Proof.Machine.execRed1 x s
  | .red2 x => Sys2Proof.Machine.execRed2 x s
  | .red3 x => Sys2Proof.Machine.execRed3 x s
  | .tsum arg => Sys2Proof.Machine.execTsum arg s
  | .zchk x => Sys2Proof.Machine.execZchk x s
  | .search => Sys2Proof.Machine.execSearch s
  | .resume => Sys2Proof.Machine.execResume s
  | .verify => Sys2Proof.Machine.execVerify s
  | .abort => Sys2Proof.Machine.execAbort s

end Sys2Proof.Machine
end

