-- ==== Sys2Proof/Machine/Port.lean ====
section
/-! DEFINITION. The host port but for CMD writes (10_state.md R31 to R48): the register map, HostRead, and HostWrite of every
register. A register is named by its 5-bit word address. -/

namespace Sys2Proof.Machine

/-- R32: the registers of the map; `ct n` and `key n` are the four words of a block, `reserved` is 0x48 to 0x7C. -/
inductive Reg where
  | cmd | status | ctrl | cfg | kg | k5r | idx | result
  | ct (n : Fin 4)
  | key (n : Fin 4)
  | fpcnt | errinfo | reserved
deriving DecidableEq, Repr

/-- R32: the register at a word address (byte offset divided by 4). -/
def regAt (a : BitVec 5) : Reg :=
  if a = 0#5 then .cmd
  else if a = 1#5 then .status
  else if a = 2#5 then .ctrl
  else if a = 3#5 then .cfg
  else if a = 4#5 then .kg
  else if a = 5#5 then .k5r
  else if a = 6#5 then .idx
  else if a = 7#5 then .result
  else if a = 8#5 then .ct 0
  else if a = 9#5 then .ct 1
  else if a = 10#5 then .ct 2
  else if a = 11#5 then .ct 3
  else if a = 12#5 then .key 0
  else if a = 13#5 then .key 1
  else if a = 14#5 then .key 2
  else if a = 15#5 then .key 3
  else if a = 16#5 then .fpcnt
  else if a = 17#5 then .errinfo
  else .reserved

/-- R31, R281: the byte offset of a word address, zero-extended. -/
def byteOffset (a : BitVec 5) : Word := (a ++ 0#2 : BitVec 7).setWidth 32

/-- R41, R85: word `n` of a block, its lowest-numbered byte in the least significant lane. -/
def blockWord (blk : Block) (n : Fin 4) : Word :=
  blk[4 * n.val + 3] ++ blk[4 * n.val + 2] ++ blk[4 * n.val + 1] ++ blk[4 * n.val]

/-- R41, R85: word `n` of a block replaced. -/
def setBlockWord (blk : Block) (n : Fin 4) (d : Word) : Block :=
  (((blk.set (4 * n.val) (d.extractLsb' 0 8)).set (4 * n.val + 1) (d.extractLsb' 8 8)).set (4 * n.val + 2)
    (d.extractLsb' 16 8)).set (4 * n.val + 3) (d.extractLsb' 24 8)

/-- R37: the CTRL word. -/
def ctrlWord (s : State) : Word := 0#30 ++ BitVec.ofBool s.ieErr ++ BitVec.ofBool s.ieDone

/-- R38: the CFG word. -/
def cfgWord (s : State) : Word := 0#8 ++ s.tselB ++ s.tselA ++ 0#5 ++ s.configId

/-- R40: the K5R word. -/
def k5rWord (s : State) : Word := 0#8 ++ s.k5v ++ s.k5c ++ s.k5

/-- R32, R34 to R47: what a host read of each register returns. -/
def readReg (r : Reg) (s : State) : Word :=
  match r with
  | .cmd => s.cmdLatch
  | .status => statusWord s
  | .ctrl => ctrlWord s
  | .cfg => cfgWord s
  | .kg => s.kg
  | .k5r => k5rWord s
  | .idx => s.idx
  | .result => s.result
  | .ct n => blockWord s.ct n
  | .key n => blockWord s.key n
  | .fpcnt => s.fpcnt
  | .errinfo => s.errinfo
  | .reserved => 0#32

/-- R31: HostRead. -/
def hostRead (a : BitVec 5) (s : State) : Word := readReg (regAt a) s

/-- R31: a host read changes nothing in the block; the Word it returns is kept in `rdata` (log 3). -/
def hostReadTurn (a : BitVec 5) (s : State) : State := { s with rdata := hostRead a s }

/-- R48, R281: a write that is refused with BusyWr while BUSY = 1 and done otherwise. -/
def idleWrite (a : BitVec 5) (f : State → State) (s : State) : State :=
  if busy s then raise .busyWr (byteOffset a) s else f s

/-- R32, R35, R37 to R48: HostWrite of every register but CMD, whose writes are commands (R34); a write to RESULT, FPCNT,
ERRINFO or a reserved offset is ignored. -/
def hostWrite (a : BitVec 5) (d : Word) (s : State) : State :=
  match regAt a with
  | .cmd => s
  | .status => statusWrite d s
  | .ctrl => { s with ieDone := d[0], ieErr := d[1] }
  | .cfg => idleWrite a (fun t => { t with configId := d.extractLsb' 0 3, tselA := d.extractLsb' 8 8,
                                           tselB := d.extractLsb' 16 8 }) s
  | .kg => idleWrite a (fun t => { t with kg := d }) s
  | .k5r => idleWrite a (fun t => { t with k5 := d.extractLsb' 0 8 }) s
  | .idx => idleWrite a (fun t => { t with idx := d }) s
  | .result => s
  | .ct n => idleWrite a (fun t => { t with ct := setBlockWord t.ct n d }) s
  | .key n => idleWrite a (fun t => { t with key := setBlockWord t.key n d }) s
  | .fpcnt => s
  | .errinfo => s
  | .reserved => s

end Sys2Proof.Machine
end

