-- ==== Sys2Proof/Machine/Turns.lean ====
section
/-! DEFINITION. What each turn of the interleaving does (00_scope.md R22): the engine's turn with its fetch from CMDLATCH, the
host's reads and writes with the command write's decoding, and the reset pulse. -/

namespace Sys2Proof.Machine

/-- R22, R223: the engine's turn: nothing in IDLE, otherwise the command held in CMDLATCH is decoded and runs. -/
def engineTurn (s : State) : Result :=
  match s.phase with
  | .idle => .next s
  | _ =>
    match decode s.cmdLatch with
    | some i => exec i s
    | none => .fault .latchIllegal

/-- R34, R280: a host write of `w` to CMD: a legal word is its command's submission, any other is Busy or BadCmd. -/
def commandWrite (w : Word) (s : State) : Result :=
  match decode w with
  | some i => exec i s
  | none => .next (raise (if busy s then .busy else .badCmd) w s)

/-- R31, R34: a host write: to CMD a command, to any other address a register write. -/
def hostWriteTurn (a : BitVec 5) (d : Word) (s : State) : Result :=
  match regAt a with
  | .cmd => commandWrite d s
  | _ => .next (hostWrite a d s)

/-- R22, R300: the turn at the head of `turns`; none left, the engine's (log 2). -/
def takeTurn (s : State) : Result :=
  match s.turns with
  | [] => engineTurn s
  | .engine :: _ => engineTurn s
  | .read a :: _ => .next (hostReadTurn a s)
  | .write a d :: _ => hostWriteTurn a d s
  | .reset :: _ => .next (resetPulse s)

end Sys2Proof.Machine
end

