-- ==== Sys2Proof/Machine/Step.lean ====
section
/-! DEFINITION. One step: the turn at the head of `turns` is taken and is over. -/

namespace Sys2Proof.Machine

/-- R22: one atomic turn of the interleaving. -/
def step (s : State) : Host.Outcome State Fault Refusal := mapNext endTurn (takeTurn s)

/-- R34: the command's Word is the data of the next turn, a host write to CMD; that is where the block gets its commands
(log 4). -/
def State.withFetchWord (s : State) (nbits w : Nat) : State :=
  { s with turns := .write 0#5 (BitVec.ofNat 32 (w % 2 ^ nbits)) :: s.turns }

end Sys2Proof.Machine
end

