-- ==== Sys2Proof/Safety.lean ====
section
/-! DEFINITION. What claims about runs are said in: the coherent states (every state a run from reset reaches is one), the
freshness of the scratch vectors of a running search (44_search.md R225), and the two rebuilt quantities of R237. -/

namespace Sys2Proof.Machine

/-- R271, R280: the first of the acceptance checks 3 to 6 that fails for a command. -/
def acceptanceFailing (i : Instr) (s : State) : Option CmdError :=
  match i with
  | .nop => none
  | .vclr arg => vclrFailing arg s
  | .vflip arg => vflipFailing arg s
  | .vtest arg => vtestFailing arg s
  | .extract arg => extractFailing arg s
  | .place => placeFailing s
  | .stest24 arg => stestFailing .w24 arg s
  | .stest16 arg => stestFailing .w16 arg s
  | .stest8 arg => stestFailing .w8 arg s
  | .red1 x => red1Failing x s
  | .red2 x => red2Failing x s
  | .red3 x => red3Failing x s
  | .tsum arg => tsumFailing arg s
  | .zchk x => zchkFailing x s
  | .search => searchFailing s
  | .resume => resumeFailing s
  | .verify => verifyFailing s
  | .abort => none

/-- R221: the commands that acceptance sends to EXEC. -/
def isSimple : Instr → Bool
  | .search | .resume | .verify => false
  | _ => true

/-- R223: CMDLATCH holds a simple command whose acceptance checks still hold. -/
def latchReady (s : State) : Bool :=
  match decode s.cmdLatch with
  | some i => isSimple i && (acceptanceFailing i s).isNone
  | none => false

/-- Every vector memory is in canonical form at its width (log 6). -/
abbrev memoriesWf (s : State) : Prop :=
  ∀ k : Slot, Memory.wf 32 s.v32[k] ∧ Memory.wf 24 s.v24[k] ∧ Memory.wf 16 s.v16[k] ∧ Memory.wf 8 s.v8[k]

/-- R57: a valid scratch width derives from a valid width above it, and width 24 from cleared slots. -/
abbrev scratchOk (x : RowSet) (s : State) : Prop :=
  ((validOf x s).sv24 = true → setInit x s = true) ∧
  ((validOf x s).sv16 = true → (validOf x s).sv24 = true) ∧
  ((validOf x s).sv8 = true → (validOf x s).sv16 = true)

/-- A SEARCH or RESUME is running (R230, R238). -/
abbrev searching (s : State) : Prop :=
  s.vonly = false ∧ idInRange s.configId = true ∧ setInit .a s = true ∧ setInit .b s = true ∧
  s.found = false ∧ s.aborted = false ∧
  (decode s.cmdLatch = some .search ∨ decode s.cmdLatch = some .resume)

/-- The verification phases are running, for VERIFY (R239) or for a candidate of a search (R233). -/
abbrev verifying (s : State) : Prop :=
  (s.vonly = true ∧ s.abortReq = false ∧ setInit .b s = true ∧ decode s.cmdLatch = some .verify) ∨
  (searching s ∧ s.validA.sv8 = true)

/-- R223, R225: what each phase relies on. -/
def positionOk (s : State) : Prop :=
  match s.phase with
  | .idle => s.abortReq = false
  | .exec => s.vonly = false ∧ s.abortReq = false ∧ latchReady s = true
  | .pPair => searching s
  | .pK3 => searching s ∧ s.validA.sv24 = true
  | .pK4 => searching s ∧ s.validA.sv16 = true
  | .pK5 => searching s ∧ s.validA.sv8 = true
  | .adv => searching s ∧ s.validA.sv8 = true
  | .vS1 => verifying s
  | .vS2 => verifying s ∧ s.validB.sv24 = true
  | .vS3 => verifying s ∧ s.validB.sv16 = true
  | .vK5 => verifying s ∧ s.validB.sv8 = true

/-- The states that runs from reset stay in. -/
structure Coherent (s : State) : Prop where
  memories : memoriesWf s
  scratchA : scratchOk .a s
  scratchB : scratchOk .b s
  record : s.err = none → s.errinfo = 0#32
  completion : s.done = true → s.phase = .idle
  outcome : ¬(s.found = true ∧ s.aborted = true)
  position : positionOk s

/-- R225: the set's width-24 vectors were computed from the current V32 with the current (K1,K2). -/
def fresh24 (x : RowSet) (s : State) : Prop :=
  ∀ r : Fin 3, s.v24[slotAt x r] = reduce1 s.v32[slotAt x r] s.k1 s.k2 (tableFor x 0 s) (tableFor x 1 s)

/-- R225: the set's width-16 vectors were computed from the width-24 ones with the current K3. -/
def fresh16 (x : RowSet) (s : State) : Prop :=
  ∀ r : Fin 3, s.v16[slotAt x r] = reduce2 s.v24[slotAt x r] s.k3 (tableFor x 2 s)

/-- R225: the set's width-8 vectors were computed from the width-16 ones with the current K4. -/
def fresh8 (x : RowSet) (s : State) : Prop :=
  ∀ r : Fin 3, s.v8[slotAt x r] = reduce3 s.v16[slotAt x r] s.k4 (tableFor x 3 s)

/-- R225: the whole pipeline of a set is fresh. -/
def freshAll (x : RowSet) (s : State) : Prop := fresh24 x s ∧ fresh16 x s ∧ fresh8 x s

/-- R225: on entry to each phase, which scratch vectors are fresh. -/
def Derived (s : State) : Prop :=
  match s.phase with
  | .idle => True
  | .exec => True
  | .pPair => True
  | .pK3 => fresh24 .a s
  | .pK4 => fresh24 .a s ∧ fresh16 .a s
  | .pK5 => freshAll .a s
  | .adv => freshAll .a s
  | .vS1 => s.vonly = false → freshAll .a s
  | .vS2 => (s.vonly = false → freshAll .a s) ∧ fresh24 .b s
  | .vS3 => (s.vonly = false → freshAll .a s) ∧ fresh24 .b s ∧ fresh16 .b s
  | .vK5 => (s.vonly = false → freshAll .a s) ∧ freshAll .b s

/-- R237: `v8(s, q)`, the width-8 vector of row `r` of a set rebuilt from V32 for the quadruple `q`. -/
def rebuilt8 (x : RowSet) (s : State) (q : Word) (r : Fin 3) : Memory :=
  reduce3
    (reduce2
      (reduce1 s.v32[slotAt x r] (quadByte q 0) (quadByte q 1) (tableFor x 0 s) (tableFor x 1 s))
      (quadByte q 2) (tableFor x 2 s))
    (quadByte q 3) (tableFor x 3 s)

/-- R203, R237: `k5` makes every row of the set sum to zero at the quadruple `q`. -/
def passes (x : RowSet) (s : State) (q : Word) (k5 : Byte) : Prop :=
  ∀ r : Fin 3, totalSum Config.imix (rebuilt8 x s q r) k5 = 0#8

/-- R205, R237: `k5` is the least that passes. -/
def leastPass (x : RowSet) (s : State) (q : Word) (k5 : Byte) : Prop :=
  passes x s q k5 ∧ ∀ j : Byte, j < k5 → ¬passes x s q j

/-- R232, R237: `q` is a candidate. -/
def candidate (s : State) (q : Word) : Prop := ∃ k5, passes .a s q k5

/-- R233, R237: `q` verifies. -/
def verifies (s : State) (q : Word) : Prop := ∃ k5, passes .b s q k5

end Sys2Proof.Machine
end

