-- ==== Sys2Proof/Certificates/Slice0/Obligations.lean ====
section
/-! DEFINITION. The statements for the provers, from the numbered rules of spec/. `Claims` holds the words they are said in,
written from the rules and not from the meanings. -/

open Sys2Proof Sys2Proof.Machine

namespace Sys2Proof.Claims

/-- R22, R223: it is the engine's turn and the phase is EXEC: the moment at which a simple command has its effect. -/
abbrev engineExec (s : State) : Prop := actor s = .engine ∧ s.phase = .exec

/-- R223: the common completion of a command. -/
def completed (s : State) : State := { s with abortReq := false, done := true, phase := .idle }

/-- R22, R224: it is the engine's turn and the phase is `p`, one of the controller's. -/
abbrev engineIn (p : Phase) (s : State) : Prop := actor s = .engine ∧ s.phase = p

/-- `n` steps of the machine, when every one of them answers a next state. -/
def runs : Nat → State → State → Prop
  | 0, s, t => s = t
  | n + 1, s, t => ∃ u, step s = .next u ∧ runs n u t

/-- The commands that read or write one slot named by ARG (R271). -/
def slotArg : Instr → Option (BitVec 3)
  | .vclr arg | .vflip arg | .vtest arg | .stest24 arg | .stest16 arg | .stest8 arg | .tsum arg => some arg
  | _ => none

/-- R271, Slot: ARG is 6 or 7. -/
def slotError (i : Instr) : Prop := slotArg i = some 6#3 ∨ slotArg i = some 7#3

/-- R271, CfgId: the id the command needs is not 1, 2, 3 or 4. -/
def idError (i : Instr) (s : State) : Prop :=
  match i with
  | .extract id => id ∉ [1#3, 2#3, 3#3, 4#3]
  | .place | .search | .resume => s.configId ∉ [1#3, 2#3, 3#3, 4#3]
  | _ => False

/-- R10: the set of the slot a 3-bit ARG names. -/
def setOfArg (arg : BitVec 3) : RowSet := if arg.toNat < 3 then .a else .b

/-- R271, Uninit. -/
def uninitError (i : Instr) (s : State) : Prop :=
  match i with
  | .vflip arg | .vtest arg => s.vinit[arg.toNat]? ≠ some true
  | .red1 x => ∃ r : Fin 3, s.vinit[slotAt x r] = false
  | .search | .resume => ∃ k : Slot, s.vinit[k] = false
  | .verify => s.vinit[3] = false ∨ s.vinit[4] = false ∨ s.vinit[5] = false
  | .red2 x => (validOf x s).sv24 = false
  | .red3 x => (validOf x s).sv16 = false
  | .tsum arg => (validOf (setOfArg arg) s).sv8 = false
  | .zchk x => (validOf x s).sv8 = false
  | .stest24 arg => (validOf (setOfArg arg) s).sv24 = false
  | .stest16 arg => (validOf (setOfArg arg) s).sv16 = false
  | .stest8 arg => (validOf (setOfArg arg) s).sv8 = false
  | _ => False

/-- R271, Range: the index of STEST is 2^W or more. -/
def rangeError (i : Instr) (s : State) : Prop :=
  match i with
  | .stest24 _ => 2 ^ 24 ≤ s.idx.toNat
  | .stest16 _ => 2 ^ 16 ≤ s.idx.toNat
  | .stest8 _ => 2 ^ 8 ≤ s.idx.toNat
  | _ => False

/-- No acceptance check of R280 fails. -/
def admissible (i : Instr) (s : State) : Prop :=
  ¬slotError i ∧ ¬idError i s ∧ ¬uninitError i s ∧ ¬rangeError i s

/-- R221: acceptance of the word `w` of the command `i`. -/
def accepted (i : Instr) (w : Word) (s : State) : State :=
  match i with
  | .search =>
    { s with cmdLatch := w, done := false, vonly := false, kg := 0#32, k5 := 0#8, k5c := 0#8, k5v := 0#8,
             fpcnt := 0#32, found := false, aborted := false, phase := .pPair }
  | .resume =>
    { s with cmdLatch := w, done := false, vonly := false, kg := s.kg &&& 0xFFFF0000#32, k5 := 0#8, found := false,
             aborted := false, phase := .pPair }
  | .verify => { s with cmdLatch := w, done := false, vonly := true, phase := .vS1 }
  | _ => { s with cmdLatch := w, done := false, vonly := false, phase := .exec }

/-- R241: what an ABORT written while BUSY = 1 does. -/
def abortWhileBusy (s : State) : State :=
  if s.phase ≠ .exec ∧ s.vonly = false then { s with abortReq := true } else s

/-- R48, R281: CFG, KG, K5R, IDX, CT0..CT3 and KEY0..KEY3, by word address. -/
abbrev protectedReg (a : BitVec 5) : Prop := (3 ≤ a.toNat ∧ a.toNat ≤ 6) ∨ (8 ≤ a.toNat ∧ a.toNat ≤ 15)

/-- R143, the position table, row by row. -/
def positions (id : BitVec 3) : Fin 4 → Fin 16 :=
  if id = 1#3 then ![0, 13, 10, 7]
  else if id = 2#3 then ![4, 1, 14, 11]
  else if id = 3#3 then ![8, 5, 2, 15]
  else ![12, 9, 6, 3]

/-- R142: one of 1, 2, 3, 4. -/
abbrev legalId (id : BitVec 3) : Prop := id ∈ [1#3, 2#3, 3#3, 4#3]

/-- R57: the valid bits of one set become `v`, the other set's stay. -/
def withValid (x : RowSet) (v : Valid) (s : State) : State :=
  match x with
  | .a => { s with validA := v }
  | .b => { s with validB := v }

/-- R39: K1 to K4 of KG, `j = 0` for K1. -/
def keyByte (kg : Word) (j : Fin 4) : Byte := (kg >>> (8 * (3 - j.val))).setWidth 8

/-- R38: the table number TSEL_X[j] selects. -/
def selected (tsel : Byte) (j : Fin 4) : Table :=
  match (tsel >>> (2 * j.val)).toNat % 4 with
  | 0 => .s1
  | 1 => .s2
  | 2 => .s3
  | _ => .s4

/-- R21, R38: T(X, j). -/
def table (x : RowSet) (j : Fin 4) (s : State) : Byte → Byte :=
  Config.stab (selected (match x with | .a => s.tselA | .b => s.tselB) j)

/-- R18: the XOR of finitely many bits is 1 exactly when an odd number of them are 1. -/
def oddly {α : Type} (p : α → Prop) : Prop := Odd (Set.ncard {x | p x})

/-- R45: `sat(n)`. -/
def sat (n : Nat) : Nat := min n 0xFFFFFFFF

/-- R31, R162: the turns of `FLIP s, i` for each index of a list in turn: write IDX, write VFLIP, let the engine run. -/
def flipTurns (arg : BitVec 3) : List Word → List Turn
  | [] => []
  | i :: is => .write 6#5 i :: .write 0#5 (0x00000002#32 + (arg.setWidth 32 <<< 8)) :: .engine :: flipTurns arg is

/-- R36: the number of a phase, row by row. -/
def phaseNumber : Phase → Nat
  | .idle => 0
  | .exec => 1
  | .pPair => 2
  | .pK3 => 3
  | .pK4 => 4
  | .pK5 => 5
  | .vS1 => 6
  | .vS2 => 7
  | .vS3 => 8
  | .vK5 => 9
  | .adv => 10

/-- R271: the code of the recorded error, row by row; 0 when none is recorded. -/
def errorNumber : Option CmdError → Nat
  | none => 0
  | some .cfgId => 1
  | some .badCmd => 2
  | some .busy => 3
  | some .slot => 4
  | some .uninit => 5
  | some .range => 6
  | some .busyWr => 7

/-- R203: the zero condition of a set at `k5`, over the rows' total sums. -/
abbrev allRowsZero (x : RowSet) (k5 : Byte) (s : State) : Prop :=
  ∀ r : Fin 3, totalSum Config.imix s.v8[slotAt x r] k5 = 0#8

/-- R22: the next turn is the engine's: it is named, or no turn is left (log 2). -/
def engineNext (s : State) : Prop := s.turns = [] ∨ ∃ rest, s.turns = .engine :: rest

/-- R271, R280: `e` is the error of the first of the acceptance checks 3 to 6 that fails for `i`. -/
def firstError (i : Instr) (s : State) : CmdError → Prop
  | .slot => slotError i
  | .cfgId => ¬slotError i ∧ idError i s
  | .uninit => ¬slotError i ∧ ¬idError i s ∧ uninitError i s
  | .range => ¬slotError i ∧ ¬idError i s ∧ ¬uninitError i s ∧ rangeError i s
  | _ => False

/-- R62: the two states differ at most in vectors that the valid bits do not cover. -/
def sameButUncovered (s t : State) : Prop :=
  t = { s with v32 := t.v32, v24 := t.v24, v16 := t.v16, v8 := t.v8 } ∧
  ∀ k : Slot,
    (s.vinit[k] = true → t.v32[k] = s.v32[k]) ∧
    ((validOf (setOfSlot k) s).sv24 = true → t.v24[k] = s.v24[k]) ∧
    ((validOf (setOfSlot k) s).sv16 = true → t.v16[k] = s.v16[k]) ∧
    ((validOf (setOfSlot k) s).sv8 = true → t.v8[k] = s.v8[k])

end Sys2Proof.Claims

open Sys2Proof.Claims

/-! ## Encoding (30_encoding.md) -/

/-- R112, R114: the decoder reads every command back from its word, with every operand at every value its field admits. -/
def Obligations.DecodeEncodeRoundTrip : Prop := ∀ i : Instr, decode (encode i) = some i

/-- R112, R116, D9: no two Words mean the same command: a legal word is the encoding of what it decodes to. -/
def Obligations.LegalWordIsItsEncoding : Prop := ∀ (w : Word) (i : Instr), decode w = some i → encode i = w

/-- R114: a Word decodes to a command of a row exactly when, masked by the row's mask, it is the row's match. -/
def Obligations.TableRowSelectsItsWords : Prop :=
  ∀ (w : Word) (j : Instr),
    w &&& (opcodeRow j).2 = (opcodeRow j).1 ↔ ∃ i, decode w = some i ∧ opcodeRow i = opcodeRow j

/-- R118: words of the assembler table decode to the commands they stand for. -/
def Obligations.SpecWordsDecode : Prop :=
  decode 0x00000000#32 = some .nop ∧ decode 0x00000501#32 = some (.vclr 5#3) ∧
  decode 0x00000104#32 = some (.extract 1#3) ∧ decode 0x00002206#32 = some (.stest16 2#3) ∧
  decode 0x00000810#32 = some (.red1 .b) ∧ decode 0x00000513#32 = some (.tsum 5#3) ∧
  decode 0x00000020#32 = some .search ∧ decode 0x0000002F#32 = some .abort ∧ decode 0x00000801#32 = none

/-! ## Steps and the check order -/

/-- R34: a host write of a legal Word to CMD runs the decoded command on the host's turn; the turn is then over. The list of
turns and exec's two roles are the model's (log 1, log 5). -/
def Obligations.StepRunsSubmittedCommand : Prop :=
  ∀ (s : State) (w : Word) (rest : List Turn) (i : Instr),
    s.turns = .write 0#5 w :: rest → decode w = some i → step s = mapNext endTurn (exec i s)

/-- R22, R223, R224: the engine's turn (named in the list, or none left: log 2) runs the command decoded from CMDLATCH while
BUSY = 1, and has no step when the phase is IDLE; the turn is then over. -/
def Obligations.StepRunsLatchedCommand : Prop :=
  ∀ s : State, engineNext s →
    (∀ i, s.phase ≠ .idle → decode s.cmdLatch = some i → step s = mapNext endTurn (exec i s)) ∧
    (s.phase = .idle → step s = .next { s with turns := s.turns.tail })

/-- R280: the checks on a host write to CMD, in their order, for every Word and every state. -/
def Obligations.CommandWriteFollowsTheCheckOrder : Prop :=
  ∀ (s : State) (w : Word) (rest : List Turn), s.turns = .write 0#5 w :: rest →
    (s.phase ≠ .idle → w = 0x0000002F#32 → step s = .next { abortWhileBusy s with turns := rest }) ∧
    (s.phase ≠ .idle → w ≠ 0x0000002F#32 → step s = .next { raise .busy w s with turns := rest }) ∧
    (s.phase = .idle → decode w = none → step s = .next { raise .badCmd w s with turns := rest }) ∧
    (∀ i, s.phase = .idle → decode w = some i →
      (slotError i → step s = .next { raise .slot w s with turns := rest }) ∧
      (¬slotError i → idError i s → step s = .next { raise .cfgId w s with turns := rest }) ∧
      (¬slotError i → ¬idError i s → uninitError i s → step s = .next { raise .uninit w s with turns := rest }) ∧
      (¬slotError i → ¬idError i s → ¬uninitError i s → rangeError i s →
        step s = .next { raise .range w s with turns := rest }) ∧
      (admissible i s → step s = .next { accepted i w s with turns := rest }))

/-- R272: the first error is recorded with its info and kept; nothing else of the state changes. -/
def Obligations.RaiseKeepsTheFirstError : Prop :=
  ∀ (e : CmdError) (info : Word) (s : State),
    (s.err = none → raise e info s = { s with err := some e, errinfo := info }) ∧
    (s.err ≠ none → raise e info s = s)

/-- R270: no engine step and no host read raises an error: the record changes only by a host write or the reset input. -/
def Obligations.ErrorRecordChangesOnlyByHostWrites : Prop :=
  ∀ s t : State, step s = .next t → (∀ a d rest, s.turns ≠ .write a d :: rest) → (∀ rest, s.turns ≠ .reset :: rest) →
    t.err = s.err ∧ t.errinfo = s.errinfo

/-- R281: a write to a protected register while BUSY = 1 raises BusyWr(offset) and leaves the register; writes to STATUS and
CTRL and host reads record no error. -/
def Obligations.BusyRegisterWriteRejected : Prop :=
  ∀ (s : State) (a : BitVec 5) (d : Word) (rest : List Turn),
    (s.turns = .write a d :: rest → s.phase ≠ .idle → protectedReg a →
      step s = .next { raise .busyWr (BitVec.ofNat 32 (4 * a.toNat)) s with turns := rest }) ∧
    (s.turns = .write a d :: rest → a = 1#5 ∨ a = 2#5 →
      ∃ t, step s = .next t ∧ (t.err = s.err ∨ t.err = none)) ∧
    (s.turns = .read a :: rest → ∃ t, step s = .next t ∧ t.err = s.err)

/-- R47, R48: offsets 0x48 to 0x7C hold no register: a read returns 0, a write changes nothing, busy or not; a write to the
read-only registers RESULT, FPCNT and ERRINFO changes nothing either. -/
def Obligations.ReservedOffsetsHoldNothing : Prop :=
  ∀ (s : State) (a : BitVec 5) (d : Word) (rest : List Turn),
    (18 ≤ a.toNat → hostRead a s = 0#32) ∧
    (18 ≤ a.toNat ∨ a = 7#5 ∨ a = 16#5 ∨ a = 17#5 → s.turns = .write a d :: rest →
      step s = .next { s with turns := rest })

/-- R31, R90: a host read changes nothing in the block. The Word it returns, HostRead of the register, is kept in the model's own
field rdata (log 3). HostRead of each register but STATUS, lane by lane: CMD reads CMDLATCH (R34), CTRL its two enables (R37),
CFG its three fields (R38), KG (R39), K5R its three bytes (R40), CT and KEY their bytes (R41, R42, R85), IDX (R43), RESULT (R44),
FPCNT (R45), ERRINFO (R46); the reserved bits read 0. -/
def Obligations.HostReadHasNoSideEffect : Prop :=
  ∀ s : State,
    (∀ (a : BitVec 5) (rest : List Turn), s.turns = .read a :: rest →
      step s = .next { s with turns := rest, rdata := hostRead a s }) ∧
    hostRead 0#5 s = s.cmdLatch ∧
    ((hostRead 2#5 s)[0] = s.ieDone ∧ (hostRead 2#5 s)[1] = s.ieErr ∧ (hostRead 2#5 s).extractLsb' 2 30 = 0#30) ∧
    ((hostRead 3#5 s).extractLsb' 0 3 = s.configId ∧ (hostRead 3#5 s).extractLsb' 3 5 = 0#5 ∧
      (hostRead 3#5 s).extractLsb' 8 8 = s.tselA ∧ (hostRead 3#5 s).extractLsb' 16 8 = s.tselB ∧
      (hostRead 3#5 s).extractLsb' 24 8 = 0#8) ∧
    hostRead 4#5 s = s.kg ∧
    ((hostRead 5#5 s).extractLsb' 0 8 = s.k5 ∧ (hostRead 5#5 s).extractLsb' 8 8 = s.k5c ∧
      (hostRead 5#5 s).extractLsb' 16 8 = s.k5v ∧ (hostRead 5#5 s).extractLsb' 24 8 = 0#8) ∧
    hostRead 6#5 s = s.idx ∧ hostRead 7#5 s = s.result ∧
    (∀ n m : Fin 4,
      (hostRead (BitVec.ofNat 5 (8 + n.val)) s).extractLsb' (8 * m.val) 8 = s.ct[4 * n.val + m.val] ∧
      (hostRead (BitVec.ofNat 5 (12 + n.val)) s).extractLsb' (8 * m.val) 8 = s.key[4 * n.val + m.val]) ∧
    hostRead 16#5 s = s.fpcnt ∧ hostRead 17#5 s = s.errinfo

/-! ## The registers (10_state.md) -/

/-- R35: every field of the STATUS word, bit by bit; BUSY is 1 exactly when PHASE is not IDLE, ERR is the error's code of R271 and
PHASE the phase's number of R36. -/
def Obligations.StatusWordFields : Prop :=
  ∀ s : State, let w := hostRead 1#5 s
    (w[0] = true ↔ s.phase ≠ .idle) ∧ w[1] = s.done ∧ w[2] = s.found ∧ w[3] = s.aborted ∧ w[4] = s.abortReq ∧
    w[5] = s.vonly ∧ w.extractLsb' 6 2 = 0#2 ∧ (w.extractLsb' 8 4).toNat = errorNumber s.err ∧
    (w.extractLsb' 12 4).toNat = phaseNumber s.phase ∧ (∀ k : Slot, w.getLsbD (16 + k.val) = s.vinit[k]) ∧
    w[22] = s.validA.sv24 ∧ w[23] = s.validA.sv16 ∧ w[24] = s.validA.sv8 ∧
    w[25] = s.validB.sv24 ∧ w[26] = s.validB.sv16 ∧ w[27] = s.validB.sv8 ∧ w.extractLsb' 28 4 = 0#4

/-- R35, R37, R38, R39, R40, R43, R274: what a host write to STATUS (clearing DONE by bit 1, ERR with ERRINFO by bit 8) and
CTRL at any time, and to CFG, KG, K5R and IDX while idle, changes, what is read back, and that nothing else changes. -/
def Obligations.RegisterWritesReadBack : Prop :=
  ∀ (s : State) (d : Word) (rest : List Turn),
    (s.turns = .write 1#5 d :: rest →
      step s = .next { s with done := s.done && !d[1], err := if d[8] then none else s.err,
                              errinfo := if d[8] then 0#32 else s.errinfo, turns := rest }) ∧
    (s.turns = .write 2#5 d :: rest → ∃ t, step s = .next t ∧ hostRead 2#5 t = d &&& 0x00000003#32 ∧
      t = { s with ieDone := d[0], ieErr := d[1], turns := rest }) ∧
    (s.turns = .write 3#5 d :: rest → s.phase = .idle → ∃ t, step s = .next t ∧ hostRead 3#5 t = d &&& 0x00FFFF07#32 ∧
      t = { s with configId := d.extractLsb' 0 3, tselA := d.extractLsb' 8 8, tselB := d.extractLsb' 16 8, turns := rest }) ∧
    (s.turns = .write 4#5 d :: rest → s.phase = .idle → step s = .next { s with kg := d, turns := rest } ∧
      hostRead 4#5 { s with kg := d, turns := rest } = d) ∧
    (s.turns = .write 5#5 d :: rest → s.phase = .idle → ∃ t, step s = .next t ∧
      hostRead 5#5 t = (hostRead 5#5 s &&& 0x00FFFF00#32) ||| (d &&& 0x000000FF#32) ∧
      t = { s with k5 := d.extractLsb' 0 8, turns := rest }) ∧
    (s.turns = .write 6#5 d :: rest → s.phase = .idle → step s = .next { s with idx := d, turns := rest } ∧
      hostRead 6#5 { s with idx := d, turns := rest } = d)

/-- R41, R42, R85: while idle a write to CT n or KEY n stores byte `m` of the word at byte `4n + m` of the block, it is read
back, and every other byte and every other field keeps its value. -/
def Obligations.BlockWordWrites : Prop :=
  ∀ (s : State) (n : Fin 4) (d : Word) (rest : List Turn), s.phase = .idle →
    (s.turns = .write (BitVec.ofNat 5 (8 + n.val)) d :: rest → ∃ t, step s = .next t ∧
      t = { s with ct := t.ct, turns := rest } ∧ hostRead (BitVec.ofNat 5 (8 + n.val)) t = d ∧
      ∀ m : Fin 16, t.ct[m] = if m.val / 4 = n.val then (d >>> (8 * (m.val % 4))).setWidth 8 else s.ct[m]) ∧
    (s.turns = .write (BitVec.ofNat 5 (12 + n.val)) d :: rest → ∃ t, step s = .next t ∧
      t = { s with key := t.key, turns := rest } ∧ hostRead (BitVec.ofNat 5 (12 + n.val)) t = d ∧
      ∀ m : Fin 16, t.key[m] = if m.val / 4 = n.val then (d >>> (8 * (m.val % 4))).setWidth 8 else s.key[m])

/-- R276: the interrupt output as a function of the CTRL and STATUS words; it is low after reset. -/
def Obligations.InterruptOutputIsAFunctionOfTheRegisters : Prop :=
  (∀ s : State, irq s = (((hostRead 2#5 s)[0] && (hostRead 1#5 s)[1]) ||
      ((hostRead 2#5 s)[1] && (hostRead 1#5 s).extractLsb' 8 4 != 0#4))) ∧
  irq State.reset = false

/-! ## NOP, EXTRACT, PLACE (40_tables_extract_place.md) -/

/-- R150, R223, R241: the EXEC step of NOP and of an ABORT accepted while idle is the common completion and nothing else. -/
def Obligations.NopAndIdleAbortOnlyComplete : Prop :=
  ∀ s : State, engineExec s → exec .nop s = .next (completed s) ∧ exec .abort s = .next (completed s)

/-- R146: EXTRACT with a legal id puts the four bytes of CT at the id's positions into IDX, the first most significant;
nothing else changes but the common completion. -/
def Obligations.ExtractGathersTheAntiDiagonal : Prop :=
  ∀ (s : State) (id : BitVec 3), engineExec s → legalId id →
    exec (.extract id) s = .next { completed s with
      idx := (s.ct[positions id 0].setWidth 32 <<< 24) ||| (s.ct[positions id 1].setWidth 32 <<< 16) |||
             (s.ct[positions id 2].setWidth 32 <<< 8) ||| s.ct[positions id 3].setWidth 32 }

/-- R148: PLACE with a legal CONFIG_ID writes K1 to K4 at the id's four positions of KEY; the other 12 bytes and every other
field keep their values but for the common completion. -/
def Obligations.PlaceScattersTheQuadruple : Prop :=
  ∀ s : State, engineExec s → legalId s.configId →
    ∃ t, exec .place s = .next t ∧ t = { completed s with key := t.key } ∧
      (∀ j : Fin 4, t.key[positions s.configId j] = keyByte s.kg j) ∧
      (∀ n : Fin 16, (∀ j, n ≠ positions s.configId j) → t.key[n] = s.key[n])

/-- R145: extract of a placed quadruple gives it back, placing what was extracted changes nothing, and place leaves the other
12 bytes. -/
def Obligations.ExtractAndPlaceAreInverse : Prop :=
  ∀ (id : BitVec 3) (q : Word) (blk : Block), legalId id →
    (∀ j : Fin 4, (placeQuad q id blk)[positions id j] = keyByte q j) ∧
    (∀ n : Fin 16, (∀ j, n ≠ positions id j) → (placeQuad q id blk)[n] = blk[n]) ∧
    extractIndex (placeQuad q id blk) id = q ∧ placeQuad (extractIndex blk id) id blk = blk

/-! ## The width-32 vectors (41_vector_memory.md) -/

/-- R161: VCLR zero-fills the slot, sets its VINIT bit and clears its set's valid bits; every other slot and field keeps its
value but for the common completion. -/
def Obligations.VclrClearsTheSlot : Prop :=
  ∀ (s : State) (arg : BitVec 3) (k : Slot), engineExec s → arg.toNat = k.val →
    ∃ t, exec (.vclr arg) s = .next t ∧
      t = withValid (setOfArg arg) ⟨false, false, false⟩ { completed s with v32 := t.v32, vinit := t.vinit } ∧
      (∀ i, memRead t.v32[k] i = false) ∧ (∀ j : Slot, j ≠ k → t.v32[j] = s.v32[j]) ∧
      (∀ j : Slot, t.vinit[j] = (s.vinit[j] || decide (j = k)))

/-- R162: VFLIP flips the bit of the slot at IDX and no other bit of any vector, and clears its set's valid bits; every other
field keeps its value but for the common completion. -/
def Obligations.VflipFlipsExactlyOneBit : Prop :=
  ∀ (s : State) (arg : BitVec 3) (k : Slot), engineExec s → arg.toNat = k.val → s.vinit[k] = true →
    ∃ t, exec (.vflip arg) s = .next t ∧
      t = withValid (setOfArg arg) ⟨false, false, false⟩ { completed s with v32 := t.v32 } ∧
      (∀ i, memRead t.v32[k] i = (memRead s.v32[k] i ^^ decide (i = s.idx.toNat))) ∧
      (∀ j : Slot, j ≠ k → t.v32[j] = s.v32[j])

/-- R164, R166: VTEST and the three widths of STEST put the bit at IDX into RESULT, zero-extended; nothing else changes but
the common completion. -/
def Obligations.BitTestsReadIntoResult : Prop :=
  ∀ (s : State) (arg : BitVec 3) (k : Slot), engineExec s → arg.toNat = k.val →
    (s.vinit[k] = true → exec (.vtest arg) s =
      .next { completed s with result := if memRead s.v32[k] s.idx.toNat then 1#32 else 0#32 }) ∧
    ((validOf (setOfArg arg) s).sv24 = true → s.idx.toNat < 2 ^ 24 → exec (.stest24 arg) s =
      .next { completed s with result := if memRead s.v24[k] s.idx.toNat then 1#32 else 0#32 }) ∧
    ((validOf (setOfArg arg) s).sv16 = true → s.idx.toNat < 2 ^ 16 → exec (.stest16 arg) s =
      .next { completed s with result := if memRead s.v16[k] s.idx.toNat then 1#32 else 0#32 }) ∧
    ((validOf (setOfArg arg) s).sv8 = true → s.idx.toNat < 2 ^ 8 → exec (.stest8 arg) s =
      .next { completed s with result := if memRead s.v8[k] s.idx.toNat then 1#32 else 0#32 })

/-- R92, R165: from an idle state whose slot is initialised, any sequence of FLIPs on it (written as the turns that carry it out,
log 1) runs to an idle state in which each bit has changed by the number of flips at its index modulo 2, whatever their order;
no other slot is touched. -/
def Obligations.FlipSequenceKeepsTheParityInvariant : Prop :=
  ∀ (s : State) (arg : BitVec 3) (k : Slot) (is : List Word), s.phase = .idle → arg.toNat = k.val → s.vinit[k] = true →
    s.turns = flipTurns arg is →
    ∃ t, runs (3 * is.length) s t ∧ t.phase = .idle ∧ t.turns = [] ∧ t.err = s.err ∧
      (∀ i : Word, memRead t.v32[k] i.toNat = (memRead s.v32[k] i.toNat ^^ decide (is.count i % 2 = 1))) ∧
      (∀ j : Slot, j ≠ k → t.v32[j] = s.v32[j])

/-- R50, R81: a bit of a width-32 vector changes only in the EXEC step of VCLR or VFLIP on its slot, or by the reset input;
VFLIP changes only the bit at IDX. -/
def Obligations.Width32VectorsChangeOnlyByLoads : Prop :=
  ∀ (s t : State) (k : Slot) (i : Nat), step s = .next t → (∀ rest, s.turns ≠ .reset :: rest) →
    memRead t.v32[k] i ≠ memRead s.v32[k] i →
    engineExec s ∧ ∃ arg : BitVec 3, arg.toNat = k.val ∧
      (decode s.cmdLatch = some (.vclr arg) ∨ (decode s.cmdLatch = some (.vflip arg) ∧ i = s.idx.toNat))

/-! ## The reduction stages (42_reduce.md) -/

/-- R181: RED1 writes the stage-1 reduction of each row's V32 to the row's V24 and sets the set's valid bits to 1, 0, 0; the
other set's vectors and every other field keep their values but for the common completion. -/
def Obligations.Red1ReducesEveryRow : Prop :=
  ∀ (s : State) (x : RowSet), engineExec s → (∀ r : Fin 3, s.vinit[slotAt x r] = true) →
    ∃ t, exec (.red1 x) s = .next t ∧
      t = withValid x ⟨true, false, false⟩ { completed s with v24 := t.v24 } ∧
      (∀ r : Fin 3, t.v24[slotAt x r] =
        reduce1 s.v32[slotAt x r] (keyByte s.kg 0) (keyByte s.kg 1) (table x 0 s) (table x 1 s)) ∧
      (∀ k : Slot, (∀ r, k ≠ slotAt x r) → t.v24[k] = s.v24[k])

/-- R186: RED2 likewise, from V24 to V16 with K3; SV24 is unchanged, SV16 becomes 1 and SV8 becomes 0. -/
def Obligations.Red2ReducesEveryRow : Prop :=
  ∀ (s : State) (x : RowSet), engineExec s → (validOf x s).sv24 = true →
    ∃ t, exec (.red2 x) s = .next t ∧
      t = withValid x ⟨true, true, false⟩ { completed s with v16 := t.v16 } ∧
      (∀ r : Fin 3, t.v16[slotAt x r] = reduce2 s.v24[slotAt x r] (keyByte s.kg 2) (table x 2 s)) ∧
      (∀ k : Slot, (∀ r, k ≠ slotAt x r) → t.v16[k] = s.v16[k])

/-- R191: RED3 likewise, from V16 to V8 with K4; SV8 becomes 1, the other valid bits are unchanged. -/
def Obligations.Red3ReducesEveryRow : Prop :=
  ∀ (s : State) (x : RowSet), engineExec s → (validOf x s).sv16 = true →
    ∃ t, exec (.red3 x) s = .next t ∧
      t = withValid x ⟨(validOf x s).sv24, true, true⟩ { completed s with v8 := t.v8 } ∧
      (∀ r : Fin 3, t.v8[slotAt x r] = reduce3 s.v16[slotAt x r] (keyByte s.kg 3) (table x 3 s)) ∧
      (∀ k : Slot, (∀ r, k ≠ slotAt x r) → t.v8[k] = s.v8[k])

/-- R182: the closed form of stage 1. -/
def Obligations.Reduce1ClosedForm : Prop :=
  ∀ (v : Memory) (k1 k2 : Byte) (ta tb : Byte → Byte), Memory.wf 32 v →
    Memory.wf 24 (reduce1 v k1 k2 ta tb) ∧
    ∀ (x : Byte) (t : BitVec 16), memRead (reduce1 v k1 k2 ta tb) (x.toNat * 2 ^ 16 + t.toNat) = true ↔
      oddly fun p : Byte × Byte => ta (p.1 ^^^ k1) ^^^ tb (p.2 ^^^ k2) = x ∧
        memRead v (p.1.toNat * 2 ^ 24 + p.2.toNat * 2 ^ 16 + t.toNat) = true

/-- R187: the closed form of stage 2, in both its shapes. -/
def Obligations.Reduce2ClosedForm : Prop :=
  ∀ (v : Memory) (k3 : Byte) (tc : Byte → Byte), Memory.wf 24 v →
    Memory.wf 16 (reduce2 v k3 tc) ∧
    ∀ y d : Byte,
      (memRead (reduce2 v k3 tc) (y.toNat * 2 ^ 8 + d.toNat) = true ↔
        oddly fun p : Byte × Byte => p.1 ^^^ tc (p.2 ^^^ k3) = y ∧
          memRead v (p.1.toNat * 2 ^ 16 + p.2.toNat * 2 ^ 8 + d.toNat) = true) ∧
      (memRead (reduce2 v k3 tc) (y.toNat * 2 ^ 8 + d.toNat) = true ↔
        oddly fun c : Byte => memRead v ((y ^^^ tc (c ^^^ k3)).toNat * 2 ^ 16 + c.toNat * 2 ^ 8 + d.toNat) = true)

/-- R192: the closed form of stage 3, in both its shapes. -/
def Obligations.Reduce3ClosedForm : Prop :=
  ∀ (v : Memory) (k4 : Byte) (td : Byte → Byte), Memory.wf 16 v →
    Memory.wf 8 (reduce3 v k4 td) ∧
    ∀ z : Byte,
      (memRead (reduce3 v k4 td) z.toNat = true ↔
        oddly fun p : Byte × Byte => p.1 ^^^ td (p.2 ^^^ k4) = z ∧ memRead v (p.1.toNat * 2 ^ 8 + p.2.toNat) = true) ∧
      (memRead (reduce3 v k4 td) z.toNat = true ↔
        oddly fun d : Byte => memRead v ((z ^^^ td (d ^^^ k4)).toNat * 2 ^ 8 + d.toNat) = true)

/-- R194: the three stages together are exact. -/
def Obligations.ThreeStagesAreExact : Prop :=
  ∀ (v : Memory) (k1 k2 k3 k4 : Byte) (ta tb tc td : Byte → Byte) (z : Byte), Memory.wf 32 v →
    (memRead (reduce3 (reduce2 (reduce1 v k1 k2 ta tb) k3 tc) k4 td) z.toNat = true ↔
      oddly fun i : Word =>
        ta (keyByte i 0 ^^^ k1) ^^^ tb (keyByte i 1 ^^^ k2) ^^^ tc (keyByte i 2 ^^^ k3) ^^^ td (keyByte i 3 ^^^ k4) = z ∧
        memRead v i.toNat = true)

/-- R206: the total sum of the reduced vector is the direct sum over the set bits of the width-32 vector, for every
inverseMix and every choice of tables. -/
def Obligations.TotalSumEqualsTheDirectSum : Prop :=
  ∀ (v : Memory) (k1 k2 k3 k4 k5 : Byte) (ta tb tc td imix : Byte → Byte), Memory.wf 32 v →
    totalSum imix (reduce3 (reduce2 (reduce1 v k1 k2 ta tb) k3 tc) k4 td) k5 =
      (v.map fun n => let i := BitVec.ofNat 32 n
        imix (ta (keyByte i 0 ^^^ k1) ^^^ tb (keyByte i 1 ^^^ k2) ^^^ tc (keyByte i 2 ^^^ k3) ^^^ td (keyByte i 3 ^^^ k4) ^^^
          k5)).foldr (· ^^^ ·) 0#8

/-- R195: each stage keeps the parity of the number of set bits and never increases the number. -/
def Obligations.StagesKeepThePopulationParity : Prop :=
  ∀ (v : Memory) (k1 k2 k3 k4 : Byte) (ta tb tc td : Byte → Byte),
    (reduce1 v k1 k2 ta tb).length % 2 = v.length % 2 ∧ (reduce1 v k1 k2 ta tb).length ≤ v.length ∧
    (reduce2 v k3 tc).length % 2 = v.length % 2 ∧ (reduce2 v k3 tc).length ≤ v.length ∧
    (reduce3 v k4 td).length % 2 = v.length % 2 ∧ (reduce3 v k4 td).length ≤ v.length

/-! ## The final check (43_final_check.md) -/

/-- R201: the total sum is the XOR over the set bits `z` of `inverseMix(z ⊕ k5)`, bit by bit; of the all-zero vector it is 0. -/
def Obligations.TotalSumClosedForm : Prop :=
  ∀ (imix : Byte → Byte) (v : Memory) (k5 : Byte), Memory.wf 8 v →
    totalSum imix memZero k5 = 0#8 ∧
    ∀ b < 8, (totalSum imix v k5).getLsbD b = true ↔
      oddly fun z : Byte => memRead v z.toNat = true ∧ (imix (z ^^^ k5)).getLsbD b = true

/-- R202: TSUM puts the zero-extended total sum of the slot's V8 at K5 into RESULT; nothing else changes but the common
completion. -/
def Obligations.TsumPutsTheSumIntoResult : Prop :=
  ∀ (s : State) (arg : BitVec 3) (k : Slot), engineExec s → arg.toNat = k.val → (validOf (setOfArg arg) s).sv8 = true →
    exec (.tsum arg) s = .next { completed s with result := (totalSum Config.imix s.v8[k] s.k5).setWidth 32 }

/-- R203, R204: ZCHK puts 1 into RESULT when every row of the set sums to zero at K5, else 0; nothing else changes but the
common completion. -/
def Obligations.ZchkPutsTheZeroConditionIntoResult : Prop :=
  ∀ (s : State) (x : RowSet), engineExec s → (validOf x s).sv8 = true →
    exec (.zchk x) s = .next { completed s with
      result := if allRowsZero x s.k5 s then 1#32 else 0#32 }

/-! ## The key-search controller (44_search.md) -/

/-- R221, R230, R238, R239: on the host's turn, idle and with its checks passed, SEARCH enters P_PAIR at quadruple 0, RESUME
enters P_PAIR at (K1,K2,0,0), VERIFY enters V_S1. -/
def Obligations.SearchCommandsStartTheController : Prop :=
  ∀ s : State, actor s = .host → s.phase = .idle →
    (legalId s.configId → (∀ k : Slot, s.vinit[k] = true) →
      exec .search s = .next (accepted .search 0x00000020#32 s) ∧
      exec .resume s = .next (accepted .resume 0x00000021#32 s)) ∧
    (s.vinit[3] = true → s.vinit[4] = true → s.vinit[5] = true →
      exec .verify s = .next (accepted .verify 0x00000022#32 s))

/-- R241: ABORT on the host's turn: a request while a SEARCH or RESUME runs, nothing while another command runs, accepted
like NOP while idle. -/
def Obligations.AbortRequestsOnlyOfARunningSearch : Prop :=
  ∀ s : State, actor s = .host →
    (s.phase ≠ .idle → s.phase ≠ .exec → s.vonly = false → exec .abort s = .next { s with abortReq := true }) ∧
    (s.phase = .exec ∨ (s.phase ≠ .idle ∧ s.vonly = true) → exec .abort s = .next s) ∧
    (s.phase = .idle → exec .abort s = .next (accepted .abort 0x0000002F#32 s))

/-- R242: the P_PAIR step of a search is the only one that looks at the request; when it is 1 the search ends there. -/
def Obligations.AbortTakesEffectAtThePairBoundary : Prop :=
  ∀ s : State,
    (engineIn .pPair s → s.abortReq = true →
      exec .search s = .next { completed s with aborted := true, result := 0#32 } ∧
      exec .resume s = .next { completed s with aborted := true, result := 0#32 }) ∧
    (∀ t i, actor s = .engine → s.phase ≠ .idle → s.phase ≠ .pPair → exec i s = .next t →
      t.aborted = s.aborted ∧ ∃ u, exec i { s with abortReq := !s.abortReq } = .next u ∧
        u = { t with abortReq := u.abortReq })

/-- R224, P_PAIR, P_K3, P_K4: the first-row pipeline of a search, phase by phase, for set A; set B's vectors are unchanged. -/
def Obligations.FirstRowPipelineSteps : Prop :=
  ∀ (s : State) (i : Instr), i = .search ∨ i = .resume →
    (engineIn .pPair s → s.abortReq = false → ∃ t, exec i s = .next t ∧
      t = { s with validA := ⟨true, false, false⟩, v24 := t.v24, phase := .pK3 } ∧
      ∀ k : Slot, t.v24[k] = if k.val < 3 then
        reduce1 s.v32[k] (keyByte s.kg 0) (keyByte s.kg 1) (table .a 0 s) (table .a 1 s) else s.v24[k]) ∧
    (engineIn .pK3 s → ∃ t, exec i s = .next t ∧
      t = { s with validA := ⟨s.validA.sv24, true, false⟩, v16 := t.v16, phase := .pK4 } ∧
      ∀ k : Slot, t.v16[k] = if k.val < 3 then reduce2 s.v24[k] (keyByte s.kg 2) (table .a 2 s) else s.v16[k]) ∧
    (engineIn .pK4 s → ∃ t, exec i s = .next t ∧
      t = { s with validA := ⟨s.validA.sv24, s.validA.sv16, true⟩, v8 := t.v8, k5 := 0#8, phase := .pK5 } ∧
      ∀ k : Slot, t.v8[k] = if k.val < 3 then reduce3 s.v16[k] (keyByte s.kg 3) (table .a 3 s) else s.v8[k])

/-- R224, V_S1, V_S2, V_S3: the second-row pipeline, always from V32[3..5], for set B; set A's vectors are unchanged (R54,
R233). -/
def Obligations.SecondRowPipelineSteps : Prop :=
  ∀ (s : State) (i : Instr), i = .search ∨ i = .resume ∨ i = .verify →
    (engineIn .vS1 s → ∃ t, exec i s = .next t ∧
      t = { s with validB := ⟨true, false, false⟩, v24 := t.v24, phase := .vS2 } ∧
      ∀ k : Slot, t.v24[k] = if 3 ≤ k.val then
        reduce1 s.v32[k] (keyByte s.kg 0) (keyByte s.kg 1) (table .b 0 s) (table .b 1 s) else s.v24[k]) ∧
    (engineIn .vS2 s → ∃ t, exec i s = .next t ∧
      t = { s with validB := ⟨s.validB.sv24, true, false⟩, v16 := t.v16, phase := .vS3 } ∧
      ∀ k : Slot, t.v16[k] = if 3 ≤ k.val then reduce2 s.v24[k] (keyByte s.kg 2) (table .b 2 s) else s.v16[k]) ∧
    (engineIn .vS3 s → ∃ t, exec i s = .next t ∧
      t = { s with validB := ⟨s.validB.sv24, s.validB.sv16, true⟩, v8 := t.v8, k5v := 0#8, phase := .vK5 } ∧
      ∀ k : Slot, t.v8[k] = if 3 ≤ k.val then reduce3 s.v16[k] (keyByte s.kg 3) (table .b 3 s) else s.v8[k])

/-- R224, P_K5, R232: the first-row zero check stops at a k5 that makes every row of set A sum to zero and records it in K5C;
otherwise it counts K5 up, and after 0xFF the quadruple is no candidate. -/
def Obligations.FirstRowZeroCheckStep : Prop :=
  ∀ (s : State) (i : Instr), i = .search ∨ i = .resume → engineIn .pK5 s →
    exec i s = .next (
      if allRowsZero .a s.k5 s then { s with k5c := s.k5, phase := .vS1 }
      else if s.k5 ≠ 0xFF#8 then { s with k5 := s.k5 + 1#8 }
      else { s with phase := .adv })

/-- R224, V_K5: the second-row zero check: it counts K5V up; on a zero the quadruple is placed and found (R235), or VERIFY
answers 1; after 0xFF the candidate is discarded and counted, saturating (R234, R45), or VERIFY answers 0. -/
def Obligations.SecondRowZeroCheckStep : Prop :=
  ∀ (s : State) (i : Instr), i = .search ∨ i = .resume ∨ i = .verify → engineIn .vK5 s →
    (s.vonly = false → legalId s.configId) →
    ∃ t, exec i s = .next t ∧
      if allRowsZero .b s.k5v s then
        if s.vonly then t = { completed s with result := 1#32 }
        else t = { completed s with key := t.key, found := true, result := 1#32 } ∧
          (∀ j : Fin 4, t.key[positions s.configId j] = keyByte s.kg j) ∧
          (∀ n : Fin 16, (∀ j, n ≠ positions s.configId j) → t.key[n] = s.key[n])
      else if s.k5v ≠ 0xFF#8 then t = { s with k5v := s.k5v + 1#8 }
      else if s.vonly then t = { completed s with result := 0#32 }
      else t = { s with fpcnt := BitVec.ofNat 32 (sat (s.fpcnt.toNat + 1)), phase := .adv }

/-- R224, ADV, R231, R236: the quadruples are visited in increasing order of K1 ++ K2 ++ K3 ++ K4; the phase that follows is
that of the highest byte that changed; after 0xFFFFFFFF the search ends with nothing found. -/
def Obligations.AdvanceVisitsTheNextQuadruple : Prop :=
  ∀ (s : State) (i : Instr), i = .search ∨ i = .resume → engineIn .adv s →
    (s.kg = 0xFFFFFFFF#32 → exec i s = .next { completed s with result := 0#32 }) ∧
    (s.kg ≠ 0xFFFFFFFF#32 → ∃ t, exec i s = .next t ∧ t = { s with kg := t.kg, phase := t.phase } ∧
      t.kg.toNat = s.kg.toNat + 1 ∧
      (t.kg.toNat % 2 ^ 8 ≠ 0 → t.phase = .pK4) ∧
      (t.kg.toNat % 2 ^ 8 = 0 → t.kg.toNat % 2 ^ 16 ≠ 0 → t.phase = .pK3) ∧
      (t.kg.toNat % 2 ^ 16 = 0 → t.phase = .pPair))

/-- R244: FOUND is set only by a V_K5 step of a search at which every row of set B sums to zero. -/
def Obligations.FoundOnlyAfterSecondRowVerification : Prop :=
  ∀ s t : State, step s = .next t → s.found = false → t.found = true →
    engineIn .vK5 s ∧ s.vonly = false ∧ allRowsZero .b s.k5v s

/-- R45: FPCNT changes only by the acceptance of SEARCH and the reset input, which zero it, and by the V_K5 step that ends a
failed verification inside a search (k5 = 0xFF tried and no zero there either), which adds one. -/
def Obligations.FpcntCountsDiscardedCandidates : Prop :=
  ∀ s t : State, step s = .next t → t.fpcnt ≠ s.fpcnt →
    (t.fpcnt = 0#32 ∧ s.phase = .idle ∧ admissible .search s ∧ ∃ rest, s.turns = .write 0#5 0x00000020#32 :: rest) ∨
    (t.fpcnt = 0#32 ∧ ∃ rest, s.turns = .reset :: rest) ∨
    (engineIn .vK5 s ∧ s.vonly = false ∧ s.k5v = 0xFF#8 ∧ ¬allRowsZero .b s.k5v s ∧ t.fpcnt.toNat = s.fpcnt.toNat + 1)

/-- R42: a byte of KEY changes only by the EXEC step of PLACE or the V_K5 step that ends a successful search, at one of the
four positions of CONFIG_ID, by a host write to its word while idle, or by the reset input. -/
def Obligations.KeyBytesChangeOnlyByPlacementOrHost : Prop :=
  ∀ (s t : State) (n : Fin 16), step s = .next t → (∀ rest, s.turns ≠ .reset :: rest) → t.key[n] ≠ s.key[n] →
    (((engineExec s ∧ decode s.cmdLatch = some .place) ∨ (engineIn .vK5 s ∧ s.vonly = false ∧ t.found = true)) ∧
      (legalId s.configId → ∃ j, n = positions s.configId j ∧ t.key[n] = keyByte s.kg j)) ∨
    (s.phase = .idle ∧ ∃ d rest, s.turns = .write (BitVec.ofNat 5 (12 + n.val / 4)) d :: rest)

/-- R56: VINIT of a slot is set by the EXEC step of VCLR on it only, and never cleared except by the reset input. -/
def Obligations.VinitIsSetByVclrAndNeverCleared : Prop :=
  ∀ (s t : State) (k : Slot), step s = .next t → (∀ rest, s.turns ≠ .reset :: rest) →
    (s.vinit[k] = true → t.vinit[k] = true) ∧
    (s.vinit[k] = false → t.vinit[k] = true →
      engineExec s ∧ ∃ arg : BitVec 3, arg.toNat = k.val ∧ decode s.cmdLatch = some (.vclr arg))

/-- R239: VERIFY runs, uninterrupted (no turn left after its submission, log 2), to its verdict: within 260 steps it ends with
RESULT = 1 and K5V the least passing k5 of set B rebuilt from V32 for KG, or with RESULT = 0 and K5V = 0xFF; nothing else
changes but set B's scratch and valid bits, DONE, VONLY, CMDLATCH. -/
def Obligations.VerifyRunsToItsVerdict : Prop :=
  ∀ s : State, s.phase = .idle → s.turns = [.write 0#5 0x00000022#32] → s.abortReq = false →
    s.vinit[3] = true → s.vinit[4] = true → s.vinit[5] = true →
    ∃ n t, n ≤ 260 ∧ runs n s t ∧
      t = { s with cmdLatch := 0x00000022#32, done := true, vonly := true, validB := ⟨true, true, true⟩,
                   v24 := t.v24, v16 := t.v16, v8 := t.v8, k5v := t.k5v, result := t.result, turns := [] } ∧
      (∀ k : Slot, k.val < 3 → t.v24[k] = s.v24[k] ∧ t.v16[k] = s.v16[k] ∧ t.v8[k] = s.v8[k]) ∧
      ((verifies s s.kg ∧ t.result = 1#32 ∧ leastPass .b s s.kg t.k5v) ∨
       (¬verifies s s.kg ∧ t.result = 0#32 ∧ t.k5v = 0xFF#8))

/-- R237, R238, R235, R236: SEARCH from quadruple 0 and RESUME from (K1,K2,0,0), uninterrupted (log 2), run to the least quadruple
that is a candidate and verifies, which is placed in KEY with the least passing k5 of each set in K5C and K5V; or, when
there is none, to exhaustion. FPCNT has grown by the number of candidates that did not verify on the way, saturating. -/
def Obligations.SearchFindsTheLeastVerifiedQuadruple : Prop :=
  ∀ (s : State) (w q0 : Word) (n0 : Nat), s.phase = .idle → s.turns = [.write 0#5 w] → s.abortReq = false →
    (w = 0x00000020#32 ∧ q0 = 0#32 ∧ n0 = 0) ∨
      (w = 0x00000021#32 ∧ q0 = s.kg &&& 0xFFFF0000#32 ∧ n0 = s.fpcnt.toNat) →
    legalId s.configId → (∀ k : Slot, s.vinit[k] = true) →
    ∃ n t, runs n s t ∧ t.phase = .idle ∧ t.done = true ∧ t.aborted = false ∧ t.err = s.err ∧ t.v32 = s.v32 ∧
      ((t.found = true ∧ t.result = 1#32 ∧ q0 ≤ t.kg ∧ candidate s t.kg ∧ verifies s t.kg ∧
        (∀ q, q0 ≤ q → q < t.kg → ¬(candidate s q ∧ verifies s q)) ∧
        t.k5 = t.k5c ∧ leastPass .a s t.kg t.k5c ∧ leastPass .b s t.kg t.k5v ∧
        t.key = placeQuad t.kg s.configId s.key ∧
        t.fpcnt.toNat = sat (n0 + Set.ncard {q : Word | q0 ≤ q ∧ q < t.kg ∧ candidate s q ∧ ¬verifies s q})) ∨
       (t.found = false ∧ t.result = 0#32 ∧ t.kg = 0xFFFFFFFF#32 ∧ t.key = s.key ∧
        (candidate s 0xFFFFFFFF#32 → leastPass .a s 0xFFFFFFFF#32 t.k5) ∧ (¬candidate s 0xFFFFFFFF#32 → t.k5 = 0xFF#8) ∧
        (∀ q, q0 ≤ q → ¬(candidate s q ∧ verifies s q)) ∧
        t.fpcnt.toNat = sat (n0 + Set.ncard {q : Word | q0 ≤ q ∧ candidate s q ∧ ¬verifies s q})))

/-- R243: an aborted search that RESUME continues, with KG untouched, is back at the pair it was stopped at: it re-enters
P_PAIR with the state it had there, but for CMDLATCH, RESULT and K5, which the search sets again before it reads them. -/
def Obligations.ResumeReentersTheAbortedPair : Prop :=
  ∀ s : State, s.phase = .pPair → s.abortReq = true → s.vonly = false → s.found = false → s.aborted = false →
    s.done = false → s.kg.toNat % 2 ^ 16 = 0 → legalId s.configId → (∀ k : Slot, s.vinit[k] = true) →
    decode s.cmdLatch = some .search ∨ decode s.cmdLatch = some .resume →
    s.turns = [.engine, .write 0#5 0x00000021#32] →
    runs 2 s { s with abortReq := false, cmdLatch := 0x00000021#32, result := 0#32, k5 := 0#8, turns := [] }

/-! ## Whole-machine statements -/

/-- R57, R223, R225, R272: every step keeps the coherence of the state: canonical memories (log 6), valid bits that imply their
sources, an error record that is empty or whole, DONE only while idle, and what each phase relies on (log 12). -/
def Obligations.StepKeepsCoherence : Prop := ∀ s t : State, Coherent s → step s = .next t → Coherent t

/-- The state after reset is coherent (the values of R60 and R61; the vectors' contents are the model's, log 7). -/
def Obligations.ResetIsCoherent : Prop := Coherent State.reset

/-- R223, R225, R270: in a coherent state no step stops: every turn of either agent answers a next state, so none of the model's
own faults (log 12) is met. -/
def Obligations.CoherentStatesNeverStop : Prop := ∀ s : State, Coherent s → ∃ t, step s = .next t

/-- The model's stops (log 12), all of them and nothing else: a meaning stops exactly in the EXEC step of a simple command with a
failing acceptance check (with the error of the first that fails) and in an EXEC step of SEARCH, RESUME or VERIFY; a step stops
exactly when it is the engine's, a command is running, and CMDLATCH holds no legal Word or a command whose meaning stops; nothing
is ever refused. By CoherentStatesNeverStop no coherent state has one. -/
def Obligations.EngineStopsOnlyOutsideTheRules : Prop :=
  ∀ s : State,
    (∀ i, i = .search ∨ i = .resume ∨ i = .verify → ∀ r, exec i s = .fault r ↔ engineExec s ∧ r = .noExecStep) ∧
    (∀ i, i ≠ .search → i ≠ .resume → i ≠ .verify → ∀ r,
      exec i s = .fault r ↔ engineExec s ∧ ∃ e, firstError i s e ∧ r = .precondition e) ∧
    (∀ r, step s = .fault r ↔ engineNext s ∧ s.phase ≠ .idle ∧
      ((decode s.cmdLatch = none ∧ r = .latchIllegal) ∨ ∃ i, decode s.cmdLatch = some i ∧ exec i s = .fault r)) ∧
    (∀ i r, exec i s ≠ .refused r) ∧ (∀ r, step s ≠ .refused r)

/-- R225: every step keeps the freshness of the running search's scratch vectors: on entry to each phase they were computed
from the current V32 with the current key bytes and tables. -/
def Obligations.StepKeepsThePipelineFresh : Prop := ∀ s t : State, Derived s → step s = .next t → Derived t

/-- R226: from every coherent state the engine alone (no turn left, log 2) brings the running command to its end. -/
def Obligations.EveryCommandFinishes : Prop :=
  ∀ s : State, Coherent s → s.turns = [] → ∃ n t, runs n s t ∧ t.phase = .idle

/-- R56, R57, R62: the contents of vectors that no command has written since reset are never observable: two coherent states
that differ in nothing else read alike at every register and step to two such states. -/
def Obligations.UncoveredVectorsAreUnobservable : Prop :=
  ∀ s t : State, Coherent s → sameButUncovered s t →
    (∀ a, hostRead a t = hostRead a s) ∧ irq t = irq s ∧
    ∀ s', step s = .next s' → ∃ t', step t = .next t' ∧ sameButUncovered s' t'

/-- R60, R61, R300, R301: after reset every register reads 0 except CFG, which reads 0x00E4E400, and the phase is IDLE; the
reset input, in any state and in the middle of any command, leaves that state (the vectors' contents, log 7 and log 14, and rdata,
log 3, are the model's). -/
def Obligations.ResetRestoresTheResetValues : Prop :=
  State.reset.phase = .idle ∧ (∀ a : BitVec 5, hostRead a State.reset = if a = 3#5 then 0x00E4E400#32 else 0#32) ∧
  ∀ (s : State) (rest : List Turn), s.turns = .reset :: rest →
    step s = .next { State.reset with turns := rest, rdata := s.rdata }
end

