-- ==== Sys2Proof/Laws/Memory.lean ====
section
/-! SUPPORT. The laws of the vector memories: what a read gives after a write, that every operation keeps the canonical form
(log 6), that equal reads make equal canonical memories, and what accumulation leaves at each index. -/

namespace Sys2Proof.Machine

/-! ## Reads -/

@[simp] theorem memRead_memZero (i : Nat) : memRead memZero i = false := rfl

theorem memRead_iff_mem (m : Memory) (i : Nat) : memRead m i = true ↔ i ∈ m := by
  simp [memRead]

theorem mem_setBit (i j : Nat) (m : Memory) : j ∈ setBit i m ↔ j = i ∨ j ∈ m := by
  induction m with
  | nil => simp [setBit]
  | cons k m ih =>
    unfold setBit
    split
    · simp
    · split
      · next h => subst h; simp
      · simp [ih]; tauto

theorem mem_clearBit (i j : Nat) (m : Memory) : j ∈ clearBit i m ↔ j ≠ i ∧ j ∈ m := by
  simp [clearBit, and_comm]

/-- R20: reading after a write gives the written bit there and the old bit elsewhere. -/
theorem memRead_memWrite (m : Memory) (i j : Nat) (b : Bool) :
    memRead (memWrite m i b) j = if j = i then b else memRead m j := by
  rw [Bool.eq_iff_iff]
  cases b <;> by_cases h : j = i <;>
    simp [memWrite, memRead_iff_mem, mem_setBit, mem_clearBit, h]

/-- R162: a flip changes exactly the bit at its index. -/
theorem memRead_memFlip (m : Memory) (i j : Nat) :
    memRead (memFlip m i) j = (memRead m j ^^ decide (j = i)) := by
  unfold memFlip
  rw [memRead_memWrite]
  by_cases h : j = i <;> simp [h]

/-! ## The canonical form -/

theorem memZero_wf (w : Nat) : Memory.wf w memZero := by simp [Memory.wf, memZero]

theorem setBit_pairwise {m : Memory} (h : m.Pairwise (· < ·)) (i : Nat) : (setBit i m).Pairwise (· < ·) := by
  induction m with
  | nil => simp [setBit]
  | cons k m ih =>
    rw [List.pairwise_cons] at h
    unfold setBit
    split
    · next hik =>
      rw [List.pairwise_cons]
      refine ⟨?_, List.pairwise_cons.2 h⟩
      intro j hj
      rcases List.mem_cons.1 hj with rfl | hj
      · exact hik
      · exact hik.trans (h.1 j hj)
    · split
      · exact List.pairwise_cons.2 h
      · rw [List.pairwise_cons]
        refine ⟨?_, ih h.2⟩
        intro j hj
        rcases (mem_setBit i j m).1 hj with rfl | hj
        · omega
        · exact h.1 j hj

/-- A write inside the width keeps the canonical form. -/
theorem memWrite_wf {w : Nat} {m : Memory} (h : Memory.wf w m) {i : Nat} (hi : i < 2 ^ w) (b : Bool) :
    Memory.wf w (memWrite m i b) := by
  cases b
  · refine ⟨h.1.filter _, fun j hj => ?_⟩
    exact h.2 j ((mem_clearBit i j m).1 hj).2
  · refine ⟨setBit_pairwise h.1 i, fun j hj => ?_⟩
    rcases (mem_setBit i j m).1 hj with rfl | hj
    · exact hi
    · exact h.2 j hj

theorem memFlip_wf {w : Nat} {m : Memory} (h : Memory.wf w m) {i : Nat} (hi : i < 2 ^ w) :
    Memory.wf w (memFlip m i) := memWrite_wf h hi _

/-- Canonical memories that read alike are equal data. -/
theorem eq_of_memRead {w : Nat} {m n : Memory} (hm : Memory.wf w m) (hn : Memory.wf w n)
    (h : ∀ i, memRead m i = memRead n i) : m = n := by
  refine List.Perm.eq_of_pairwise (fun a b _ _ hab hba => absurd hba (Nat.lt_asymm hab)) hm.1 hn.1 ?_
  rw [List.perm_ext_iff_of_nodup (hm.1.imp fun h => Nat.ne_of_lt h) (hn.1.imp fun h => Nat.ne_of_lt h)]
  intro i
  rw [← memRead_iff_mem, ← memRead_iff_mem, h]

/-- R90: a flip is its own inverse, as data. -/
theorem memFlip_memFlip {w : Nat} {m : Memory} (h : Memory.wf w m) {i : Nat} (hi : i < 2 ^ w) :
    memFlip (memFlip m i) i = m := by
  refine eq_of_memRead (memFlip_wf (memFlip_wf h hi) hi) h fun j => ?_
  simp [memRead_memFlip]

/-! ## Accumulation -/

theorem memRead_foldl_flip (f : Nat → Nat) (m : Memory) (out : Memory) (j : Nat) :
    memRead (m.foldl (fun out i => memFlip out (f i)) out) j
      = (memRead out j ^^ decide (m.countP (fun i => f i == j) % 2 = 1)) := by
  induction m generalizing out with
  | nil => simp
  | cons i m ih =>
    rw [List.foldl_cons, ih, memRead_memFlip, List.countP_cons]
    by_cases h : f i = j
    · subst h
      cases memRead out (f i) <;> rcases Nat.mod_two_eq_zero_or_one (m.countP fun k => f k == f i) with h2 | h2 <;>
        simp [Nat.add_mod, h2]
    · have : ¬ j = f i := fun e => h e.symm
      simp [h, this]

/-- R182: the bit at `j` after accumulation is the parity of how many set bits of `m` go to `j`. -/
theorem memRead_accumulate (f : Nat → Nat) (m : Memory) (j : Nat) :
    memRead (accumulate f m) j = decide (m.countP (fun i => f i == j) % 2 = 1) := by
  simp [accumulate, memRead_foldl_flip]

/-- Accumulation at indices inside the width gives a canonical memory. -/
theorem accumulate_wf {w : Nat} {f : Nat → Nat} (hf : ∀ i, f i < 2 ^ w) (m : Memory) :
    Memory.wf w (accumulate f m) := by
  unfold accumulate
  suffices ∀ out, Memory.wf w out → Memory.wf w (m.foldl (fun out i => memFlip out (f i)) out) from
    this _ (memZero_wf w)
  induction m with
  | nil => exact fun out h => h
  | cons i m ih => exact fun out h => ih _ (memFlip_wf h (hf i))

theorem fold1_lt (k1 k2 : Byte) (ta tb : Byte → Byte) (i : Nat) : fold1 k1 k2 ta tb i < 2 ^ 24 := BitVec.isLt _

theorem fold2_lt (k3 : Byte) (tc : Byte → Byte) (i : Nat) : fold2 k3 tc i < 2 ^ 16 := BitVec.isLt _

theorem fold3_lt (k4 : Byte) (td : Byte → Byte) (i : Nat) : fold3 k4 td i < 2 ^ 8 := BitVec.isLt _

theorem reduce1_wf (v : Memory) (k1 k2 : Byte) (ta tb : Byte → Byte) : Memory.wf 24 (reduce1 v k1 k2 ta tb) :=
  accumulate_wf (fold1_lt k1 k2 ta tb) v

theorem reduce2_wf (v : Memory) (k3 : Byte) (tc : Byte → Byte) : Memory.wf 16 (reduce2 v k3 tc) :=
  accumulate_wf (fold2_lt k3 tc) v

theorem reduce3_wf (v : Memory) (k4 : Byte) (td : Byte → Byte) : Memory.wf 8 (reduce3 v k4 td) :=
  accumulate_wf (fold3_lt k4 td) v

end Sys2Proof.Machine
end

