-- ==== Sys2Proof/Laws/State.lean ====
section
/-! SUPPORT. One lemma per field per shared update of State, each true by computation, so that no later proof unfolds a
record update: endTurn, finish, accept, clearError, hostReadTurn, setValid, raise, requestAbort. -/

namespace Sys2Proof.Machine

/-! endTurn -/

@[simp] theorem endTurn_phase (s : State) : (endTurn s).phase = s.phase := rfl
@[simp] theorem endTurn_cmdLatch (s : State) : (endTurn s).cmdLatch = s.cmdLatch := rfl
@[simp] theorem endTurn_done (s : State) : (endTurn s).done = s.done := rfl
@[simp] theorem endTurn_found (s : State) : (endTurn s).found = s.found := rfl
@[simp] theorem endTurn_aborted (s : State) : (endTurn s).aborted = s.aborted := rfl
@[simp] theorem endTurn_abortReq (s : State) : (endTurn s).abortReq = s.abortReq := rfl
@[simp] theorem endTurn_vonly (s : State) : (endTurn s).vonly = s.vonly := rfl
@[simp] theorem endTurn_err (s : State) : (endTurn s).err = s.err := rfl
@[simp] theorem endTurn_errinfo (s : State) : (endTurn s).errinfo = s.errinfo := rfl
@[simp] theorem endTurn_ieDone (s : State) : (endTurn s).ieDone = s.ieDone := rfl
@[simp] theorem endTurn_ieErr (s : State) : (endTurn s).ieErr = s.ieErr := rfl
@[simp] theorem endTurn_configId (s : State) : (endTurn s).configId = s.configId := rfl
@[simp] theorem endTurn_tselA (s : State) : (endTurn s).tselA = s.tselA := rfl
@[simp] theorem endTurn_tselB (s : State) : (endTurn s).tselB = s.tselB := rfl
@[simp] theorem endTurn_kg (s : State) : (endTurn s).kg = s.kg := rfl
@[simp] theorem endTurn_k5 (s : State) : (endTurn s).k5 = s.k5 := rfl
@[simp] theorem endTurn_k5c (s : State) : (endTurn s).k5c = s.k5c := rfl
@[simp] theorem endTurn_k5v (s : State) : (endTurn s).k5v = s.k5v := rfl
@[simp] theorem endTurn_idx (s : State) : (endTurn s).idx = s.idx := rfl
@[simp] theorem endTurn_result (s : State) : (endTurn s).result = s.result := rfl
@[simp] theorem endTurn_ct (s : State) : (endTurn s).ct = s.ct := rfl
@[simp] theorem endTurn_key (s : State) : (endTurn s).key = s.key := rfl
@[simp] theorem endTurn_fpcnt (s : State) : (endTurn s).fpcnt = s.fpcnt := rfl
@[simp] theorem endTurn_vinit (s : State) : (endTurn s).vinit = s.vinit := rfl
@[simp] theorem endTurn_validA (s : State) : (endTurn s).validA = s.validA := rfl
@[simp] theorem endTurn_validB (s : State) : (endTurn s).validB = s.validB := rfl
@[simp] theorem endTurn_v32 (s : State) : (endTurn s).v32 = s.v32 := rfl
@[simp] theorem endTurn_v24 (s : State) : (endTurn s).v24 = s.v24 := rfl
@[simp] theorem endTurn_v16 (s : State) : (endTurn s).v16 = s.v16 := rfl
@[simp] theorem endTurn_v8 (s : State) : (endTurn s).v8 = s.v8 := rfl
@[simp] theorem endTurn_turns (s : State) : (endTurn s).turns = s.turns.tail := rfl
@[simp] theorem endTurn_rdata (s : State) : (endTurn s).rdata = s.rdata := rfl

/-! finish -/

@[simp] theorem finish_phase (s : State) : (finish s).phase = .idle := rfl
@[simp] theorem finish_cmdLatch (s : State) : (finish s).cmdLatch = s.cmdLatch := rfl
@[simp] theorem finish_done (s : State) : (finish s).done = true := rfl
@[simp] theorem finish_found (s : State) : (finish s).found = s.found := rfl
@[simp] theorem finish_aborted (s : State) : (finish s).aborted = s.aborted := rfl
@[simp] theorem finish_abortReq (s : State) : (finish s).abortReq = false := rfl
@[simp] theorem finish_vonly (s : State) : (finish s).vonly = s.vonly := rfl
@[simp] theorem finish_err (s : State) : (finish s).err = s.err := rfl
@[simp] theorem finish_errinfo (s : State) : (finish s).errinfo = s.errinfo := rfl
@[simp] theorem finish_ieDone (s : State) : (finish s).ieDone = s.ieDone := rfl
@[simp] theorem finish_ieErr (s : State) : (finish s).ieErr = s.ieErr := rfl
@[simp] theorem finish_configId (s : State) : (finish s).configId = s.configId := rfl
@[simp] theorem finish_tselA (s : State) : (finish s).tselA = s.tselA := rfl
@[simp] theorem finish_tselB (s : State) : (finish s).tselB = s.tselB := rfl
@[simp] theorem finish_kg (s : State) : (finish s).kg = s.kg := rfl
@[simp] theorem finish_k5 (s : State) : (finish s).k5 = s.k5 := rfl
@[simp] theorem finish_k5c (s : State) : (finish s).k5c = s.k5c := rfl
@[simp] theorem finish_k5v (s : State) : (finish s).k5v = s.k5v := rfl
@[simp] theorem finish_idx (s : State) : (finish s).idx = s.idx := rfl
@[simp] theorem finish_result (s : State) : (finish s).result = s.result := rfl
@[simp] theorem finish_ct (s : State) : (finish s).ct = s.ct := rfl
@[simp] theorem finish_key (s : State) : (finish s).key = s.key := rfl
@[simp] theorem finish_fpcnt (s : State) : (finish s).fpcnt = s.fpcnt := rfl
@[simp] theorem finish_vinit (s : State) : (finish s).vinit = s.vinit := rfl
@[simp] theorem finish_validA (s : State) : (finish s).validA = s.validA := rfl
@[simp] theorem finish_validB (s : State) : (finish s).validB = s.validB := rfl
@[simp] theorem finish_v32 (s : State) : (finish s).v32 = s.v32 := rfl
@[simp] theorem finish_v24 (s : State) : (finish s).v24 = s.v24 := rfl
@[simp] theorem finish_v16 (s : State) : (finish s).v16 = s.v16 := rfl
@[simp] theorem finish_v8 (s : State) : (finish s).v8 = s.v8 := rfl
@[simp] theorem finish_turns (s : State) : (finish s).turns = s.turns := rfl
@[simp] theorem finish_rdata (s : State) : (finish s).rdata = s.rdata := rfl

/-! accept -/

@[simp] theorem accept_phase (w : Word) (s : State) : (accept w s).phase = .exec := rfl
@[simp] theorem accept_cmdLatch (w : Word) (s : State) : (accept w s).cmdLatch = w := rfl
@[simp] theorem accept_done (w : Word) (s : State) : (accept w s).done = false := rfl
@[simp] theorem accept_found (w : Word) (s : State) : (accept w s).found = s.found := rfl
@[simp] theorem accept_aborted (w : Word) (s : State) : (accept w s).aborted = s.aborted := rfl
@[simp] theorem accept_abortReq (w : Word) (s : State) : (accept w s).abortReq = s.abortReq := rfl
@[simp] theorem accept_vonly (w : Word) (s : State) : (accept w s).vonly = false := rfl
@[simp] theorem accept_err (w : Word) (s : State) : (accept w s).err = s.err := rfl
@[simp] theorem accept_errinfo (w : Word) (s : State) : (accept w s).errinfo = s.errinfo := rfl
@[simp] theorem accept_ieDone (w : Word) (s : State) : (accept w s).ieDone = s.ieDone := rfl
@[simp] theorem accept_ieErr (w : Word) (s : State) : (accept w s).ieErr = s.ieErr := rfl
@[simp] theorem accept_configId (w : Word) (s : State) : (accept w s).configId = s.configId := rfl
@[simp] theorem accept_tselA (w : Word) (s : State) : (accept w s).tselA = s.tselA := rfl
@[simp] theorem accept_tselB (w : Word) (s : State) : (accept w s).tselB = s.tselB := rfl
@[simp] theorem accept_kg (w : Word) (s : State) : (accept w s).kg = s.kg := rfl
@[simp] theorem accept_k5 (w : Word) (s : State) : (accept w s).k5 = s.k5 := rfl
@[simp] theorem accept_k5c (w : Word) (s : State) : (accept w s).k5c = s.k5c := rfl
@[simp] theorem accept_k5v (w : Word) (s : State) : (accept w s).k5v = s.k5v := rfl
@[simp] theorem accept_idx (w : Word) (s : State) : (accept w s).idx = s.idx := rfl
@[simp] theorem accept_result (w : Word) (s : State) : (accept w s).result = s.result := rfl
@[simp] theorem accept_ct (w : Word) (s : State) : (accept w s).ct = s.ct := rfl
@[simp] theorem accept_key (w : Word) (s : State) : (accept w s).key = s.key := rfl
@[simp] theorem accept_fpcnt (w : Word) (s : State) : (accept w s).fpcnt = s.fpcnt := rfl
@[simp] theorem accept_vinit (w : Word) (s : State) : (accept w s).vinit = s.vinit := rfl
@[simp] theorem accept_validA (w : Word) (s : State) : (accept w s).validA = s.validA := rfl
@[simp] theorem accept_validB (w : Word) (s : State) : (accept w s).validB = s.validB := rfl
@[simp] theorem accept_v32 (w : Word) (s : State) : (accept w s).v32 = s.v32 := rfl
@[simp] theorem accept_v24 (w : Word) (s : State) : (accept w s).v24 = s.v24 := rfl
@[simp] theorem accept_v16 (w : Word) (s : State) : (accept w s).v16 = s.v16 := rfl
@[simp] theorem accept_v8 (w : Word) (s : State) : (accept w s).v8 = s.v8 := rfl
@[simp] theorem accept_turns (w : Word) (s : State) : (accept w s).turns = s.turns := rfl
@[simp] theorem accept_rdata (w : Word) (s : State) : (accept w s).rdata = s.rdata := rfl

/-! clearError -/

@[simp] theorem clearError_phase (s : State) : (clearError s).phase = s.phase := rfl
@[simp] theorem clearError_cmdLatch (s : State) : (clearError s).cmdLatch = s.cmdLatch := rfl
@[simp] theorem clearError_done (s : State) : (clearError s).done = s.done := rfl
@[simp] theorem clearError_found (s : State) : (clearError s).found = s.found := rfl
@[simp] theorem clearError_aborted (s : State) : (clearError s).aborted = s.aborted := rfl
@[simp] theorem clearError_abortReq (s : State) : (clearError s).abortReq = s.abortReq := rfl
@[simp] theorem clearError_vonly (s : State) : (clearError s).vonly = s.vonly := rfl
@[simp] theorem clearError_err (s : State) : (clearError s).err = none := rfl
@[simp] theorem clearError_errinfo (s : State) : (clearError s).errinfo = 0#32 := rfl
@[simp] theorem clearError_ieDone (s : State) : (clearError s).ieDone = s.ieDone := rfl
@[simp] theorem clearError_ieErr (s : State) : (clearError s).ieErr = s.ieErr := rfl
@[simp] theorem clearError_configId (s : State) : (clearError s).configId = s.configId := rfl
@[simp] theorem clearError_tselA (s : State) : (clearError s).tselA = s.tselA := rfl
@[simp] theorem clearError_tselB (s : State) : (clearError s).tselB = s.tselB := rfl
@[simp] theorem clearError_kg (s : State) : (clearError s).kg = s.kg := rfl
@[simp] theorem clearError_k5 (s : State) : (clearError s).k5 = s.k5 := rfl
@[simp] theorem clearError_k5c (s : State) : (clearError s).k5c = s.k5c := rfl
@[simp] theorem clearError_k5v (s : State) : (clearError s).k5v = s.k5v := rfl
@[simp] theorem clearError_idx (s : State) : (clearError s).idx = s.idx := rfl
@[simp] theorem clearError_result (s : State) : (clearError s).result = s.result := rfl
@[simp] theorem clearError_ct (s : State) : (clearError s).ct = s.ct := rfl
@[simp] theorem clearError_key (s : State) : (clearError s).key = s.key := rfl
@[simp] theorem clearError_fpcnt (s : State) : (clearError s).fpcnt = s.fpcnt := rfl
@[simp] theorem clearError_vinit (s : State) : (clearError s).vinit = s.vinit := rfl
@[simp] theorem clearError_validA (s : State) : (clearError s).validA = s.validA := rfl
@[simp] theorem clearError_validB (s : State) : (clearError s).validB = s.validB := rfl
@[simp] theorem clearError_v32 (s : State) : (clearError s).v32 = s.v32 := rfl
@[simp] theorem clearError_v24 (s : State) : (clearError s).v24 = s.v24 := rfl
@[simp] theorem clearError_v16 (s : State) : (clearError s).v16 = s.v16 := rfl
@[simp] theorem clearError_v8 (s : State) : (clearError s).v8 = s.v8 := rfl
@[simp] theorem clearError_turns (s : State) : (clearError s).turns = s.turns := rfl
@[simp] theorem clearError_rdata (s : State) : (clearError s).rdata = s.rdata := rfl

/-! hostReadTurn -/

@[simp] theorem hostReadTurn_phase (a : BitVec 5) (s : State) : (hostReadTurn a s).phase = s.phase := rfl
@[simp] theorem hostReadTurn_cmdLatch (a : BitVec 5) (s : State) : (hostReadTurn a s).cmdLatch = s.cmdLatch := rfl
@[simp] theorem hostReadTurn_done (a : BitVec 5) (s : State) : (hostReadTurn a s).done = s.done := rfl
@[simp] theorem hostReadTurn_found (a : BitVec 5) (s : State) : (hostReadTurn a s).found = s.found := rfl
@[simp] theorem hostReadTurn_aborted (a : BitVec 5) (s : State) : (hostReadTurn a s).aborted = s.aborted := rfl
@[simp] theorem hostReadTurn_abortReq (a : BitVec 5) (s : State) : (hostReadTurn a s).abortReq = s.abortReq := rfl
@[simp] theorem hostReadTurn_vonly (a : BitVec 5) (s : State) : (hostReadTurn a s).vonly = s.vonly := rfl
@[simp] theorem hostReadTurn_err (a : BitVec 5) (s : State) : (hostReadTurn a s).err = s.err := rfl
@[simp] theorem hostReadTurn_errinfo (a : BitVec 5) (s : State) : (hostReadTurn a s).errinfo = s.errinfo := rfl
@[simp] theorem hostReadTurn_ieDone (a : BitVec 5) (s : State) : (hostReadTurn a s).ieDone = s.ieDone := rfl
@[simp] theorem hostReadTurn_ieErr (a : BitVec 5) (s : State) : (hostReadTurn a s).ieErr = s.ieErr := rfl
@[simp] theorem hostReadTurn_configId (a : BitVec 5) (s : State) : (hostReadTurn a s).configId = s.configId := rfl
@[simp] theorem hostReadTurn_tselA (a : BitVec 5) (s : State) : (hostReadTurn a s).tselA = s.tselA := rfl
@[simp] theorem hostReadTurn_tselB (a : BitVec 5) (s : State) : (hostReadTurn a s).tselB = s.tselB := rfl
@[simp] theorem hostReadTurn_kg (a : BitVec 5) (s : State) : (hostReadTurn a s).kg = s.kg := rfl
@[simp] theorem hostReadTurn_k5 (a : BitVec 5) (s : State) : (hostReadTurn a s).k5 = s.k5 := rfl
@[simp] theorem hostReadTurn_k5c (a : BitVec 5) (s : State) : (hostReadTurn a s).k5c = s.k5c := rfl
@[simp] theorem hostReadTurn_k5v (a : BitVec 5) (s : State) : (hostReadTurn a s).k5v = s.k5v := rfl
@[simp] theorem hostReadTurn_idx (a : BitVec 5) (s : State) : (hostReadTurn a s).idx = s.idx := rfl
@[simp] theorem hostReadTurn_result (a : BitVec 5) (s : State) : (hostReadTurn a s).result = s.result := rfl
@[simp] theorem hostReadTurn_ct (a : BitVec 5) (s : State) : (hostReadTurn a s).ct = s.ct := rfl
@[simp] theorem hostReadTurn_key (a : BitVec 5) (s : State) : (hostReadTurn a s).key = s.key := rfl
@[simp] theorem hostReadTurn_fpcnt (a : BitVec 5) (s : State) : (hostReadTurn a s).fpcnt = s.fpcnt := rfl
@[simp] theorem hostReadTurn_vinit (a : BitVec 5) (s : State) : (hostReadTurn a s).vinit = s.vinit := rfl
@[simp] theorem hostReadTurn_validA (a : BitVec 5) (s : State) : (hostReadTurn a s).validA = s.validA := rfl
@[simp] theorem hostReadTurn_validB (a : BitVec 5) (s : State) : (hostReadTurn a s).validB = s.validB := rfl
@[simp] theorem hostReadTurn_v32 (a : BitVec 5) (s : State) : (hostReadTurn a s).v32 = s.v32 := rfl
@[simp] theorem hostReadTurn_v24 (a : BitVec 5) (s : State) : (hostReadTurn a s).v24 = s.v24 := rfl
@[simp] theorem hostReadTurn_v16 (a : BitVec 5) (s : State) : (hostReadTurn a s).v16 = s.v16 := rfl
@[simp] theorem hostReadTurn_v8 (a : BitVec 5) (s : State) : (hostReadTurn a s).v8 = s.v8 := rfl
@[simp] theorem hostReadTurn_turns (a : BitVec 5) (s : State) : (hostReadTurn a s).turns = s.turns := rfl
@[simp] theorem hostReadTurn_rdata (a : BitVec 5) (s : State) : (hostReadTurn a s).rdata = hostRead a s := rfl

/-! setValid -/

@[simp] theorem setValid_phase (x : RowSet) (v : Valid) (s : State) : (setValid x v s).phase = s.phase := by cases x <;> rfl
@[simp] theorem setValid_cmdLatch (x : RowSet) (v : Valid) (s : State) : (setValid x v s).cmdLatch = s.cmdLatch := by cases x <;> rfl
@[simp] theorem setValid_done (x : RowSet) (v : Valid) (s : State) : (setValid x v s).done = s.done := by cases x <;> rfl
@[simp] theorem setValid_found (x : RowSet) (v : Valid) (s : State) : (setValid x v s).found = s.found := by cases x <;> rfl
@[simp] theorem setValid_aborted (x : RowSet) (v : Valid) (s : State) : (setValid x v s).aborted = s.aborted := by cases x <;> rfl
@[simp] theorem setValid_abortReq (x : RowSet) (v : Valid) (s : State) : (setValid x v s).abortReq = s.abortReq := by cases x <;> rfl
@[simp] theorem setValid_vonly (x : RowSet) (v : Valid) (s : State) : (setValid x v s).vonly = s.vonly := by cases x <;> rfl
@[simp] theorem setValid_err (x : RowSet) (v : Valid) (s : State) : (setValid x v s).err = s.err := by cases x <;> rfl
@[simp] theorem setValid_errinfo (x : RowSet) (v : Valid) (s : State) : (setValid x v s).errinfo = s.errinfo := by cases x <;> rfl
@[simp] theorem setValid_ieDone (x : RowSet) (v : Valid) (s : State) : (setValid x v s).ieDone = s.ieDone := by cases x <;> rfl
@[simp] theorem setValid_ieErr (x : RowSet) (v : Valid) (s : State) : (setValid x v s).ieErr = s.ieErr := by cases x <;> rfl
@[simp] theorem setValid_configId (x : RowSet) (v : Valid) (s : State) : (setValid x v s).configId = s.configId := by cases x <;> rfl
@[simp] theorem setValid_tselA (x : RowSet) (v : Valid) (s : State) : (setValid x v s).tselA = s.tselA := by cases x <;> rfl
@[simp] theorem setValid_tselB (x : RowSet) (v : Valid) (s : State) : (setValid x v s).tselB = s.tselB := by cases x <;> rfl
@[simp] theorem setValid_kg (x : RowSet) (v : Valid) (s : State) : (setValid x v s).kg = s.kg := by cases x <;> rfl
@[simp] theorem setValid_k5 (x : RowSet) (v : Valid) (s : State) : (setValid x v s).k5 = s.k5 := by cases x <;> rfl
@[simp] theorem setValid_k5c (x : RowSet) (v : Valid) (s : State) : (setValid x v s).k5c = s.k5c := by cases x <;> rfl
@[simp] theorem setValid_k5v (x : RowSet) (v : Valid) (s : State) : (setValid x v s).k5v = s.k5v := by cases x <;> rfl
@[simp] theorem setValid_idx (x : RowSet) (v : Valid) (s : State) : (setValid x v s).idx = s.idx := by cases x <;> rfl
@[simp] theorem setValid_result (x : RowSet) (v : Valid) (s : State) : (setValid x v s).result = s.result := by cases x <;> rfl
@[simp] theorem setValid_ct (x : RowSet) (v : Valid) (s : State) : (setValid x v s).ct = s.ct := by cases x <;> rfl
@[simp] theorem setValid_key (x : RowSet) (v : Valid) (s : State) : (setValid x v s).key = s.key := by cases x <;> rfl
@[simp] theorem setValid_fpcnt (x : RowSet) (v : Valid) (s : State) : (setValid x v s).fpcnt = s.fpcnt := by cases x <;> rfl
@[simp] theorem setValid_vinit (x : RowSet) (v : Valid) (s : State) : (setValid x v s).vinit = s.vinit := by cases x <;> rfl
@[simp] theorem setValid_v32 (x : RowSet) (v : Valid) (s : State) : (setValid x v s).v32 = s.v32 := by cases x <;> rfl
@[simp] theorem setValid_v24 (x : RowSet) (v : Valid) (s : State) : (setValid x v s).v24 = s.v24 := by cases x <;> rfl
@[simp] theorem setValid_v16 (x : RowSet) (v : Valid) (s : State) : (setValid x v s).v16 = s.v16 := by cases x <;> rfl
@[simp] theorem setValid_v8 (x : RowSet) (v : Valid) (s : State) : (setValid x v s).v8 = s.v8 := by cases x <;> rfl
@[simp] theorem setValid_turns (x : RowSet) (v : Valid) (s : State) : (setValid x v s).turns = s.turns := by cases x <;> rfl
@[simp] theorem setValid_rdata (x : RowSet) (v : Valid) (s : State) : (setValid x v s).rdata = s.rdata := by cases x <;> rfl

/-! raise -/

@[simp] theorem raise_phase (e : CmdError) (w : Word) (s : State) : (raise e w s).phase = s.phase := by unfold raise; split <;> rfl
@[simp] theorem raise_cmdLatch (e : CmdError) (w : Word) (s : State) : (raise e w s).cmdLatch = s.cmdLatch := by unfold raise; split <;> rfl
@[simp] theorem raise_done (e : CmdError) (w : Word) (s : State) : (raise e w s).done = s.done := by unfold raise; split <;> rfl
@[simp] theorem raise_found (e : CmdError) (w : Word) (s : State) : (raise e w s).found = s.found := by unfold raise; split <;> rfl
@[simp] theorem raise_aborted (e : CmdError) (w : Word) (s : State) : (raise e w s).aborted = s.aborted := by unfold raise; split <;> rfl
@[simp] theorem raise_abortReq (e : CmdError) (w : Word) (s : State) : (raise e w s).abortReq = s.abortReq := by unfold raise; split <;> rfl
@[simp] theorem raise_vonly (e : CmdError) (w : Word) (s : State) : (raise e w s).vonly = s.vonly := by unfold raise; split <;> rfl
@[simp] theorem raise_ieDone (e : CmdError) (w : Word) (s : State) : (raise e w s).ieDone = s.ieDone := by unfold raise; split <;> rfl
@[simp] theorem raise_ieErr (e : CmdError) (w : Word) (s : State) : (raise e w s).ieErr = s.ieErr := by unfold raise; split <;> rfl
@[simp] theorem raise_configId (e : CmdError) (w : Word) (s : State) : (raise e w s).configId = s.configId := by unfold raise; split <;> rfl
@[simp] theorem raise_tselA (e : CmdError) (w : Word) (s : State) : (raise e w s).tselA = s.tselA := by unfold raise; split <;> rfl
@[simp] theorem raise_tselB (e : CmdError) (w : Word) (s : State) : (raise e w s).tselB = s.tselB := by unfold raise; split <;> rfl
@[simp] theorem raise_kg (e : CmdError) (w : Word) (s : State) : (raise e w s).kg = s.kg := by unfold raise; split <;> rfl
@[simp] theorem raise_k5 (e : CmdError) (w : Word) (s : State) : (raise e w s).k5 = s.k5 := by unfold raise; split <;> rfl
@[simp] theorem raise_k5c (e : CmdError) (w : Word) (s : State) : (raise e w s).k5c = s.k5c := by unfold raise; split <;> rfl
@[simp] theorem raise_k5v (e : CmdError) (w : Word) (s : State) : (raise e w s).k5v = s.k5v := by unfold raise; split <;> rfl
@[simp] theorem raise_idx (e : CmdError) (w : Word) (s : State) : (raise e w s).idx = s.idx := by unfold raise; split <;> rfl
@[simp] theorem raise_result (e : CmdError) (w : Word) (s : State) : (raise e w s).result = s.result := by unfold raise; split <;> rfl
@[simp] theorem raise_ct (e : CmdError) (w : Word) (s : State) : (raise e w s).ct = s.ct := by unfold raise; split <;> rfl
@[simp] theorem raise_key (e : CmdError) (w : Word) (s : State) : (raise e w s).key = s.key := by unfold raise; split <;> rfl
@[simp] theorem raise_fpcnt (e : CmdError) (w : Word) (s : State) : (raise e w s).fpcnt = s.fpcnt := by unfold raise; split <;> rfl
@[simp] theorem raise_vinit (e : CmdError) (w : Word) (s : State) : (raise e w s).vinit = s.vinit := by unfold raise; split <;> rfl
@[simp] theorem raise_validA (e : CmdError) (w : Word) (s : State) : (raise e w s).validA = s.validA := by unfold raise; split <;> rfl
@[simp] theorem raise_validB (e : CmdError) (w : Word) (s : State) : (raise e w s).validB = s.validB := by unfold raise; split <;> rfl
@[simp] theorem raise_v32 (e : CmdError) (w : Word) (s : State) : (raise e w s).v32 = s.v32 := by unfold raise; split <;> rfl
@[simp] theorem raise_v24 (e : CmdError) (w : Word) (s : State) : (raise e w s).v24 = s.v24 := by unfold raise; split <;> rfl
@[simp] theorem raise_v16 (e : CmdError) (w : Word) (s : State) : (raise e w s).v16 = s.v16 := by unfold raise; split <;> rfl
@[simp] theorem raise_v8 (e : CmdError) (w : Word) (s : State) : (raise e w s).v8 = s.v8 := by unfold raise; split <;> rfl
@[simp] theorem raise_turns (e : CmdError) (w : Word) (s : State) : (raise e w s).turns = s.turns := by unfold raise; split <;> rfl
@[simp] theorem raise_rdata (e : CmdError) (w : Word) (s : State) : (raise e w s).rdata = s.rdata := by unfold raise; split <;> rfl

/-! requestAbort -/

@[simp] theorem requestAbort_phase (s : State) : (requestAbort s).phase = s.phase := by unfold requestAbort; split <;> rfl
@[simp] theorem requestAbort_cmdLatch (s : State) : (requestAbort s).cmdLatch = s.cmdLatch := by unfold requestAbort; split <;> rfl
@[simp] theorem requestAbort_done (s : State) : (requestAbort s).done = s.done := by unfold requestAbort; split <;> rfl
@[simp] theorem requestAbort_found (s : State) : (requestAbort s).found = s.found := by unfold requestAbort; split <;> rfl
@[simp] theorem requestAbort_aborted (s : State) : (requestAbort s).aborted = s.aborted := by unfold requestAbort; split <;> rfl
@[simp] theorem requestAbort_vonly (s : State) : (requestAbort s).vonly = s.vonly := by unfold requestAbort; split <;> rfl
@[simp] theorem requestAbort_err (s : State) : (requestAbort s).err = s.err := by unfold requestAbort; split <;> rfl
@[simp] theorem requestAbort_errinfo (s : State) : (requestAbort s).errinfo = s.errinfo := by unfold requestAbort; split <;> rfl
@[simp] theorem requestAbort_ieDone (s : State) : (requestAbort s).ieDone = s.ieDone := by unfold requestAbort; split <;> rfl
@[simp] theorem requestAbort_ieErr (s : State) : (requestAbort s).ieErr = s.ieErr := by unfold requestAbort; split <;> rfl
@[simp] theorem requestAbort_configId (s : State) : (requestAbort s).configId = s.configId := by unfold requestAbort; split <;> rfl
@[simp] theorem requestAbort_tselA (s : State) : (requestAbort s).tselA = s.tselA := by unfold requestAbort; split <;> rfl
@[simp] theorem requestAbort_tselB (s : State) : (requestAbort s).tselB = s.tselB := by unfold requestAbort; split <;> rfl
@[simp] theorem requestAbort_kg (s : State) : (requestAbort s).kg = s.kg := by unfold requestAbort; split <;> rfl
@[simp] theorem requestAbort_k5 (s : State) : (requestAbort s).k5 = s.k5 := by unfold requestAbort; split <;> rfl
@[simp] theorem requestAbort_k5c (s : State) : (requestAbort s).k5c = s.k5c := by unfold requestAbort; split <;> rfl
@[simp] theorem requestAbort_k5v (s : State) : (requestAbort s).k5v = s.k5v := by unfold requestAbort; split <;> rfl
@[simp] theorem requestAbort_idx (s : State) : (requestAbort s).idx = s.idx := by unfold requestAbort; split <;> rfl
@[simp] theorem requestAbort_result (s : State) : (requestAbort s).result = s.result := by unfold requestAbort; split <;> rfl
@[simp] theorem requestAbort_ct (s : State) : (requestAbort s).ct = s.ct := by unfold requestAbort; split <;> rfl
@[simp] theorem requestAbort_key (s : State) : (requestAbort s).key = s.key := by unfold requestAbort; split <;> rfl
@[simp] theorem requestAbort_fpcnt (s : State) : (requestAbort s).fpcnt = s.fpcnt := by unfold requestAbort; split <;> rfl
@[simp] theorem requestAbort_vinit (s : State) : (requestAbort s).vinit = s.vinit := by unfold requestAbort; split <;> rfl
@[simp] theorem requestAbort_validA (s : State) : (requestAbort s).validA = s.validA := by unfold requestAbort; split <;> rfl
@[simp] theorem requestAbort_validB (s : State) : (requestAbort s).validB = s.validB := by unfold requestAbort; split <;> rfl
@[simp] theorem requestAbort_v32 (s : State) : (requestAbort s).v32 = s.v32 := by unfold requestAbort; split <;> rfl
@[simp] theorem requestAbort_v24 (s : State) : (requestAbort s).v24 = s.v24 := by unfold requestAbort; split <;> rfl
@[simp] theorem requestAbort_v16 (s : State) : (requestAbort s).v16 = s.v16 := by unfold requestAbort; split <;> rfl
@[simp] theorem requestAbort_v8 (s : State) : (requestAbort s).v8 = s.v8 := by unfold requestAbort; split <;> rfl
@[simp] theorem requestAbort_turns (s : State) : (requestAbort s).turns = s.turns := by unfold requestAbort; split <;> rfl
@[simp] theorem requestAbort_rdata (s : State) : (requestAbort s).rdata = s.rdata := by unfold requestAbort; split <;> rfl

/-- R57: the valid bits of a set after they are written. -/
@[simp] theorem validOf_setValid_self (x : RowSet) (v : Valid) (s : State) : validOf x (setValid x v s) = v := by
  cases x <;> rfl

/-- R57: writing the valid bits of one set leaves the other's. -/
theorem validOf_setValid_of_ne {x y : RowSet} (h : y ≠ x) (v : Valid) (s : State) :
    validOf y (setValid x v s) = validOf y s := by
  cases x <;> cases y <;> first | rfl | exact absurd rfl h

/-- R272: what `raise` does to the error code. -/
theorem raise_err (e : CmdError) (w : Word) (s : State) :
    (raise e w s).err = some (s.err.getD e) := by
  unfold raise; cases h : s.err <;> simp [h]

/-- R272: what `raise` does to ERRINFO. -/
theorem raise_errinfo (e : CmdError) (w : Word) (s : State) :
    (raise e w s).errinfo = if s.err = none then w else s.errinfo := by
  unfold raise; cases h : s.err <;> simp

end Sys2Proof.Machine
end

