-- ==== Sys2Proof/Laws/Ops.lean ====
section
/-! SUPPORT. What each shared operation can do, said once: the submission and the two agents' turns of a command, the step
table, the stages on the rows of a set, and the turns of step. -/

namespace Sys2Proof.Machine

/-! ## Turns and agents -/

theorem actor_of_write {s : State} {a : BitVec 5} {d : Word} {rest : List Turn}
    (h : s.turns = .write a d :: rest) : actor s = .host := by simp [actor, h]

theorem actor_of_nil {s : State} (h : s.turns = []) : actor s = .engine := by simp [actor, h]

theorem actor_of_engine {s : State} {rest : List Turn} (h : s.turns = .engine :: rest) : actor s = .engine := by
  simp [actor, h]

@[simp] theorem mapNext_next (f : State → State) (s : State) : mapNext f (.next s) = .next (f s) := rfl

/-- A mapped outcome that answers a next state comes from one. -/
theorem mapNext_eq_next {f : State → State} {r : Result} {t : State} (h : mapNext f r = .next t) :
    ∃ u, r = .next u ∧ t = f u := by
  cases r <;> simp [mapNext] at h
  exact ⟨_, rfl, h.symm⟩

theorem takeTurn_nil {s : State} (h : s.turns = []) : takeTurn s = engineTurn s := by simp [takeTurn, h]

theorem takeTurn_engine {s : State} {rest : List Turn} (h : s.turns = .engine :: rest) :
    takeTurn s = engineTurn s := by simp [takeTurn, h]

theorem takeTurn_read {s : State} {a : BitVec 5} {rest : List Turn} (h : s.turns = .read a :: rest) :
    takeTurn s = .next (hostReadTurn a s) := by simp [takeTurn, h]

theorem takeTurn_write {s : State} {a : BitVec 5} {d : Word} {rest : List Turn}
    (h : s.turns = .write a d :: rest) : takeTurn s = hostWriteTurn a d s := by simp [takeTurn, h]

theorem takeTurn_reset {s : State} {rest : List Turn} (h : s.turns = .reset :: rest) :
    takeTurn s = .next (resetPulse s) := by simp [takeTurn, h]

/-- The five kinds of turn. -/
theorem turn_cases (s : State) :
    ((s.turns = [] ∨ ∃ rest, s.turns = .engine :: rest) ∧ takeTurn s = engineTurn s ∧ actor s = .engine) ∨
    (∃ a rest, s.turns = .read a :: rest ∧ takeTurn s = .next (hostReadTurn a s)) ∨
    (∃ a d rest, s.turns = .write a d :: rest ∧ takeTurn s = hostWriteTurn a d s ∧ actor s = .host) ∨
    (∃ rest, s.turns = .reset :: rest ∧ takeTurn s = .next (resetPulse s)) := by
  rcases h : s.turns with _ | ⟨t, rest⟩
  · exact .inl ⟨.inl rfl, takeTurn_nil h, actor_of_nil h⟩
  · rcases t with _ | a | ⟨a, d⟩ | _
    · exact .inl ⟨.inr ⟨rest, rfl⟩, takeTurn_engine h, actor_of_engine h⟩
    · exact .inr (.inl ⟨a, rest, rfl, takeTurn_read h⟩)
    · exact .inr (.inr (.inl ⟨a, d, rest, rfl, takeTurn_write h, actor_of_write h⟩))
    · exact .inr (.inr (.inr ⟨rest, rfl, takeTurn_reset h⟩))

/-! ## Commands -/

theorem busy_eq_true_iff (s : State) : busy s = true ↔ s.phase ≠ .idle := by simp [busy]

theorem busy_eq_false_iff (s : State) : busy s = false ↔ s.phase = .idle := by simp [busy]

/-- R280, R272: a submission while BUSY = 1 is Busy. -/
theorem submit_busy {s : State} (h : s.phase ≠ .idle) (w : Word) (f : Option CmdError) (g : State → State) :
    submit w f g s = raise .busy w s := by simp [submit, (busy_eq_true_iff s).2 h]

/-- R280, R272: a submission while idle whose check fails records that error. -/
theorem submit_failing {s : State} (h : s.phase = .idle) (w : Word) (e : CmdError) (g : State → State) :
    submit w (some e) g s = raise e w s := by simp [submit, (busy_eq_false_iff s).2 h]

/-- R280, R221: a submission while idle whose checks pass is accepted. -/
theorem submit_accepted {s : State} (h : s.phase = .idle) (w : Word) (g : State → State) :
    submit w none g s = g (accept w s) := by simp [submit, (busy_eq_false_iff s).2 h]

/-- R221: what the acceptance of each command adds to the common part. -/
def entering : Instr → State → State
  | .search => enterSearch
  | .resume => enterResume
  | .verify => enterVerify
  | _ => id

/-- R223: the pseudocode of each simple command. -/
def effectOf : Instr → State → State
  | .vclr arg => onSlot arg clearSlot
  | .vflip arg => onSlot arg flipSlot
  | .vtest arg => onSlot arg testSlot
  | .extract arg => extractEffect arg
  | .place => placeEffect
  | .stest24 arg => onSlot arg (testScratch .w24)
  | .stest16 arg => onSlot arg (testScratch .w16)
  | .stest8 arg => onSlot arg (testScratch .w8)
  | .red1 x => stage1 x
  | .red2 x => stage2 x
  | .red3 x => stage3 x
  | .tsum arg => onSlot arg sumSlot
  | .zchk x => checkSet x
  | _ => id

/-- R280: on the host's turn every command but ABORT is its submission. -/
theorem exec_host {i : Instr} (hi : i ≠ .abort) {s : State} (h : actor s = .host) :
    exec i s = .next (submit (encode i) (acceptanceFailing i s) (entering i) s) := by
  cases i <;> first
    | exact absurd rfl hi
    | simp only [exec, execNop, execVclr, execVflip, execVtest, execExtract, execPlace, execStest24, execStest16,
        execStest8, execRed1, execRed2, execRed3, execTsum, execZchk, execSearch, execResume, execVerify,
        simpleCommand, searchCommand, h, acceptanceFailing, entering]

/-- R241: ABORT on the host's turn. -/
theorem exec_abort_host {s : State} (h : actor s = .host) :
    exec .abort s = .next (if busy s then requestAbort s else accept (encode .abort) s) := by
  simp only [exec, execAbort, h]

/-- R22: on the engine's turn nothing happens in IDLE. -/
theorem exec_engine_idle (i : Instr) {s : State} (h : actor s = .engine) (hp : s.phase = .idle) :
    exec i s = .next s := by
  cases i <;>
    simp only [exec, execNop, execVclr, execVflip, execVtest, execExtract, execPlace, execStest24, execStest16,
        execStest8, execRed1, execRed2, execRed3, execTsum, execZchk, execSearch, execResume, execVerify, execAbort,
        simpleCommand, searchCommand, h, engineStep, hp]

/-- R223: on the engine's turn a simple command in EXEC is its guarded pseudocode. -/
theorem exec_engine_exec {i : Instr} (hi : isSimple i = true) {s : State} (h : actor s = .engine)
    (hp : s.phase = .exec) : exec i s = simpleExec (acceptanceFailing i) (effectOf i) s := by
  cases i <;> first
    | (exfalso; simp [isSimple] at hi; done)
    | simp only [exec, execNop, execVclr, execVflip, execVtest, execExtract, execPlace, execStest24, execStest16,
        execStest8, execRed1, execRed2, execRed3, execTsum, execZchk, execAbort,
        simpleCommand, h, engineStep, hp]; rfl

theorem simpleExec_of_none {f : State → Option CmdError} {s : State} (h : f s = none) (g : State → State) :
    simpleExec f g s = .next (finish (g s)) := by simp [simpleExec, h]

theorem simpleExec_eq_next {f : State → Option CmdError} {g : State → State} {s t : State}
    (h : simpleExec f g s = .next t) : f s = none ∧ t = finish (g s) := by
  unfold simpleExec at h
  split at h
  · next hf => cases h; exact ⟨hf, rfl⟩
  · cases h

/-- R221: SEARCH, RESUME and VERIFY have no EXEC step. -/
theorem exec_engine_exec_search {i : Instr} (hi : isSimple i = false) {s : State} (h : actor s = .engine)
    (hp : s.phase = .exec) : exec i s = .fault .noExecStep := by
  cases i <;> first
    | (exfalso; simp [isSimple] at hi; done)
    | simp only [exec, execSearch, execResume, execVerify, searchCommand, h, engineStep, hp]

/-- R224: on the engine's turn in a phase of the controller the step table moves, whatever the command. -/
theorem exec_engine_controller (i : Instr) {s : State} (h : actor s = .engine) (hi : s.phase ≠ .idle)
    (he : s.phase ≠ .exec) : exec i s = .next (controllerStep s) := by
  have key : ∀ r, engineStep r s = .next (controllerStep s) := by
    intro r; unfold engineStep; split <;> first | contradiction | rfl
  cases i <;>
    simp only [exec, execNop, execVclr, execVflip, execVtest, execExtract, execPlace, execStest24, execStest16,
        execStest8, execRed1, execRed2, execRed3, execTsum, execZchk, execSearch, execResume, execVerify, execAbort,
        simpleCommand, searchCommand, h, key]

/-- R22, R223, R224: everything the engine's turn can do when it answers a next state. -/
theorem engineTurn_cases {s t : State} (ha : actor s = .engine) (h : engineTurn s = .next t) :
    (s.phase = .idle ∧ t = s) ∨
    (s.phase = .exec ∧ ∃ i, decode s.cmdLatch = some i ∧ isSimple i = true ∧ acceptanceFailing i s = none ∧
      t = finish (effectOf i s)) ∨
    (s.phase ≠ .idle ∧ s.phase ≠ .exec ∧ t = controllerStep s) := by
  by_cases hp : s.phase = .idle
  · refine .inl ⟨hp, ?_⟩
    simp [engineTurn, hp] at h
    exact h.symm
  · have he : engineTurn s = match decode s.cmdLatch with
        | some i => exec i s
        | none => .fault .latchIllegal := by
      unfold engineTurn; split
      · contradiction
      · rfl
    rw [he] at h
    rcases hd : decode s.cmdLatch with _ | i
    · simp [hd] at h
    · simp only [hd] at h
      by_cases hx : s.phase = .exec
      · refine .inr (.inl ⟨hx, i, rfl, ?_⟩)
        cases hs : isSimple i
        · rw [exec_engine_exec_search hs ha hx] at h; cases h
        · rw [exec_engine_exec hs ha hx] at h
          obtain ⟨hf, ht⟩ := simpleExec_eq_next h
          exact ⟨rfl, hf, ht⟩
      · refine .inr (.inr ⟨hp, hx, ?_⟩)
        rw [exec_engine_controller i ha hp hx] at h
        cases h; rfl

/-- R280: everything a host write to CMD does. -/
theorem commandWrite_eq {s : State} (ha : actor s = .host) (w : Word) :
    commandWrite w s = .next (match decode w with
      | none => raise (if busy s then .busy else .badCmd) w s
      | some .abort => if busy s then requestAbort s else accept (encode .abort) s
      | some i => submit (encode i) (acceptanceFailing i s) (entering i) s) := by
  unfold commandWrite
  rcases decode w with _ | i
  · rfl
  · cases i <;> first
      | exact exec_abort_host ha
      | exact exec_host (by decide) ha
      | exact exec_host (by simp) ha

/-! ## Rows of a set -/

theorem setOfSlot_slotAt (x : RowSet) (r : Fin 3) : setOfSlot (slotAt x r) = x := by
  cases x <;> simp [setOfSlot, slotAt, r.isLt]

theorem slotAt_surj (k : Slot) : ∃ r, k = slotAt (setOfSlot k) r := by
  revert k; decide

/-- R180: a row of the set gets the function of its input row. -/
theorem mapRows_slotAt (x : RowSet) (f : Memory → Memory) (inp out : Vector Memory 6) (r : Fin 3) :
    (mapRows x f inp out)[slotAt x r] = f inp[slotAt x r] := by
  simp [mapRows, setOfSlot_slotAt]

/-- R180: a row of the set gets the function of its input row. -/
theorem mapRows_of_eq {x : RowSet} {k : Slot} (h : setOfSlot k = x) (f : Memory → Memory) (inp out : Vector Memory 6) :
    (mapRows x f inp out)[k] = f inp[k] := by
  simp [mapRows, h]

/-- R196: a row of the other set is left alone. -/
theorem mapRows_of_ne {x : RowSet} {k : Slot} (h : setOfSlot k ≠ x) (f : Memory → Memory) (inp out : Vector Memory 6) :
    (mapRows x f inp out)[k] = out[k] := by
  simp [mapRows, h]

/-- R115, R112: an in-range ARG names its slot. -/
theorem slotOf_of_lt {arg : BitVec 3} (h : arg.toNat < 6) : slotOf arg = some ⟨arg.toNat, h⟩ := by simp [slotOf, h]

theorem slotOf_eq_some {arg : BitVec 3} {k : Slot} : slotOf arg = some k ↔ arg.toNat = k.val := by
  unfold slotOf
  split
  · simp [Fin.ext_iff]
  · simp; omega

/-- R271: the Slot check passes exactly when ARG names a slot. -/
theorem slotInRange_iff (arg : BitVec 3) : slotInRange arg = true ↔ ∃ k, slotOf arg = some k := by
  simp only [slotInRange, decide_eq_true_eq, slotOf_eq_some]
  exact ⟨fun h => ⟨⟨arg.toNat, h⟩, rfl⟩, fun ⟨k, hk⟩ => hk ▸ k.isLt⟩

theorem onSlot_of_some {arg : BitVec 3} {k : Slot} (h : slotOf arg = some k) (f : Slot → State → State) (s : State) :
    onSlot arg f s = f k s := by simp [onSlot, h]

/-! ## The step table -/

theorem controllerStep_pPair {s : State} (h : s.phase = .pPair) : controllerStep s = pPairStep s := by
  simp [controllerStep, h]
theorem controllerStep_pK3 {s : State} (h : s.phase = .pK3) : controllerStep s = pK3Step s := by
  simp [controllerStep, h]
theorem controllerStep_pK4 {s : State} (h : s.phase = .pK4) : controllerStep s = pK4Step s := by
  simp [controllerStep, h]
theorem controllerStep_pK5 {s : State} (h : s.phase = .pK5) : controllerStep s = pK5Step s := by
  simp [controllerStep, h]
theorem controllerStep_vS1 {s : State} (h : s.phase = .vS1) : controllerStep s = vS1Step s := by
  simp [controllerStep, h]
theorem controllerStep_vS2 {s : State} (h : s.phase = .vS2) : controllerStep s = vS2Step s := by
  simp [controllerStep, h]
theorem controllerStep_vS3 {s : State} (h : s.phase = .vS3) : controllerStep s = vS3Step s := by
  simp [controllerStep, h]
theorem controllerStep_vK5 {s : State} (h : s.phase = .vK5) : controllerStep s = vK5Step s := by
  simp [controllerStep, h]
theorem controllerStep_adv {s : State} (h : s.phase = .adv) : controllerStep s = advStep s := by
  simp [controllerStep, h]

/-- R203: the zero condition is that every row sums to zero. -/
theorem zeroCondition_iff (x : RowSet) (k5 : Byte) (s : State) :
    zeroCondition x k5 s = true ↔ ∀ r : Fin 3, totalSum Config.imix s.v8[slotAt x r] k5 = 0#8 := by
  simp only [zeroCondition, rowZero, Bool.and_eq_true, beq_iff_eq]
  constructor
  · rintro ⟨⟨h0, h1⟩, h2⟩ r
    match r with
    | 0 => exact h0
    | 1 => exact h1
    | 2 => exact h2
  · exact fun h => ⟨⟨h 0, h 1⟩, h 2⟩

/-- R306: every row of a set is initialised. -/
theorem setInit_iff (x : RowSet) (s : State) : setInit x s = true ↔ ∀ k : Slot, setOfSlot k = x → s.vinit[k] = true := by
  constructor
  · intro h k hk
    obtain ⟨r, hr⟩ := slotAt_surj k
    rw [hk] at hr
    subst hr
    simp only [setInit, Bool.and_eq_true] at h
    match r with
    | 0 => exact h.1.1
    | 1 => exact h.1.2
    | 2 => exact h.2
  · intro h
    simp only [setInit, Bool.and_eq_true]
    exact ⟨⟨h _ (setOfSlot_slotAt x 0), h _ (setOfSlot_slotAt x 1)⟩, h _ (setOfSlot_slotAt x 2)⟩

/-- R180: rewriting the rows of a set keeps a width's canonical form, if what is written has it. -/
theorem mapRows_wf {w : Nat} {x : RowSet} {f : Memory → Memory} {inp out : Vector Memory 6}
    (h : ∀ k : Slot, Memory.wf w out[k]) (hf : ∀ m, Memory.wf w (f m)) (k : Slot) : Memory.wf w (mapRows x f inp out)[k] := by
  by_cases hk : setOfSlot k = x
  · rw [mapRows_of_eq hk]; exact hf _
  · rw [mapRows_of_ne hk]; exact h k

/-- Writing one slot keeps a width's canonical form, if what is written has it. -/
theorem set_wf {w : Nat} {v : Vector Memory 6} {m : Memory} (h : ∀ k : Slot, Memory.wf w v[k]) (hm : Memory.wf w m)
    (j k : Slot) : Memory.wf w (v.set j m)[k] := by
  simp only [Fin.getElem_fin, Vector.getElem_set]
  split
  · exact hm
  · exact h k

/-! ## The checks and the port -/

/-- R271: the acceptance checks read the initialised and valid bits, CONFIG_ID and IDX, and nothing else. -/
theorem acceptanceFailing_congr (i : Instr) {s t : State} (hi : t.vinit = s.vinit) (ha : t.validA = s.validA)
    (hb : t.validB = s.validB) (hc : t.configId = s.configId) (hx : t.idx = s.idx) :
    acceptanceFailing i t = acceptanceFailing i s := by
  have hv : ∀ x, validOf x t = validOf x s := fun x => by cases x <;> assumption
  have hs : ∀ x, setInit x t = setInit x s := fun x => by simp [setInit, hi]
  have h1 : ∀ a, argInit a t = argInit a s := fun a => by simp [argInit, hi]
  have h2 : ∀ w a, argValid w a t = argValid w a s := fun w a => by simp [argValid, hv]
  cases i <;> simp [acceptanceFailing, vclrFailing, vflipFailing, vtestFailing, extractFailing, placeFailing, stestFailing,
    red1Failing, red2Failing, red3Failing, tsumFailing, zchkFailing, searchFailing, resumeFailing, verifyFailing, configIdBad,
    hv, hs, h1, h2, hc, hx]

/-- R281: a protected register while BUSY = 1. -/
theorem idleWrite_busy {s : State} (h : s.phase ≠ .idle) (a : BitVec 5) (f : State → State) :
    idleWrite a f s = raise .busyWr (byteOffset a) s := by simp [idleWrite, (busy_eq_true_iff s).2 h]

/-- R37 to R43: a protected register while idle. -/
theorem idleWrite_idle {s : State} (h : s.phase = .idle) (a : BitVec 5) (f : State → State) : idleWrite a f s = f s := by
  simp [idleWrite, (busy_eq_false_iff s).2 h]

/-- R47: the reserved offsets. -/
theorem regAt_reserved {a : BitVec 5} (h : 18 ≤ a.toNat) : regAt a = .reserved := by
  revert a; decide

/-- R31, R281: the byte offset is four times the word address. -/
theorem byteOffset_eq (a : BitVec 5) : byteOffset a = BitVec.ofNat 32 (4 * a.toNat) := by
  revert a; decide

/-- The vectors are canonical at reset (log 6, log 7). -/
theorem reset_memoriesWf : memoriesWf State.reset := by decide

end Sys2Proof.Machine
end

