-- ==== Sys2Proof/Laws/PerInstr.lean ====
section
/-! SUPPORT. Per-instruction families. OpcodeRow: the encoder's word of a command lies in the command's row of the opcode table
(30_encoding.md R114): masked by the row's mask it is the row's match. -/

namespace Sys2Proof.Laws

/-- R114: a Word selects the row exactly when `(w & mask) = match`. -/
@[reducible] def OpcodeRow.Statement (i : Instr) : Prop := encode i &&& (opcodeRow i).2 = (opcodeRow i).1

theorem OpcodeRow.nop : OpcodeRow.Statement .nop := by decide
theorem OpcodeRow.vclr (arg : BitVec 3) : OpcodeRow.Statement (.vclr arg) := by revert arg; decide
theorem OpcodeRow.vflip (arg : BitVec 3) : OpcodeRow.Statement (.vflip arg) := by revert arg; decide
theorem OpcodeRow.vtest (arg : BitVec 3) : OpcodeRow.Statement (.vtest arg) := by revert arg; decide
theorem OpcodeRow.extract (arg : BitVec 3) : OpcodeRow.Statement (.extract arg) := by revert arg; decide
theorem OpcodeRow.place : OpcodeRow.Statement .place := by decide
theorem OpcodeRow.stest24 (arg : BitVec 3) : OpcodeRow.Statement (.stest24 arg) := by revert arg; decide
theorem OpcodeRow.stest16 (arg : BitVec 3) : OpcodeRow.Statement (.stest16 arg) := by revert arg; decide
theorem OpcodeRow.stest8 (arg : BitVec 3) : OpcodeRow.Statement (.stest8 arg) := by revert arg; decide
theorem OpcodeRow.red1 (set : RowSet) : OpcodeRow.Statement (.red1 set) := by cases set <;> decide
theorem OpcodeRow.red2 (set : RowSet) : OpcodeRow.Statement (.red2 set) := by cases set <;> decide
theorem OpcodeRow.red3 (set : RowSet) : OpcodeRow.Statement (.red3 set) := by cases set <;> decide
theorem OpcodeRow.tsum (arg : BitVec 3) : OpcodeRow.Statement (.tsum arg) := by revert arg; decide
theorem OpcodeRow.zchk (set : RowSet) : OpcodeRow.Statement (.zchk set) := by cases set <;> decide
theorem OpcodeRow.search : OpcodeRow.Statement .search := by decide
theorem OpcodeRow.resume : OpcodeRow.Statement .resume := by decide
theorem OpcodeRow.verify : OpcodeRow.Statement .verify := by decide
theorem OpcodeRow.abort : OpcodeRow.Statement .abort := by decide

end Sys2Proof.Laws
end

