-- ==== Sys2Proof/Tests/Slice0.lean ====
section
/-! SUPPORT. Tests: the well-formedness checks refuse ill-formed terms, words written out from the spec's encoding decode to the
commands they stand for, one step of each command against the vectors of 95_test_vectors.md, and for each statement of
Obligations.lean with hypotheses a state and operands that meet them. -/

open Sys2Proof Sys2Proof.Machine Sys2Proof.Claims

namespace Sys2Proof.Tests

/-! ## WellFormed: each check refuses an ill-formed term (30_encoding.md R112, 40_tables_extract_place.md R142) -/

theorem test_wellFormed_slot_refused :
    [Instr.vclr 6, .vclr 7, .vflip 7, .vtest 6, .stest24 6, .stest16 7, .stest8 6, .tsum 6].all (!·.wellFormed) = true := by
  decide

theorem test_wellFormed_id_refused : [Instr.extract 0, .extract 5, .extract 6, .extract 7].all (!·.wellFormed) = true := by
  decide

theorem test_wellFormed_accepts : [Instr.vclr 0, .vclr 5, .extract 1, .extract 4, .tsum 5, .place].all (·.wellFormed) = true := by
  decide

/-! ## Decode: words written out from R111, R113 and R118, RSV _ STG _ SET _ ARG _ OP -/

theorem test_decode_nop : decode 0b000000000000000000_00_0_000_00000000#32 = some .nop := by decide
theorem test_decode_vclr : decode 0b000000000000000000_00_0_101_00000001#32 = some (.vclr 5#3) := by decide
theorem test_decode_vflip : decode 0b000000000000000000_00_0_100_00000010#32 = some (.vflip 4#3) := by decide
theorem test_decode_vtest : decode 0b000000000000000000_00_0_011_00000011#32 = some (.vtest 3#3) := by decide
theorem test_decode_extract : decode 0b000000000000000000_00_0_001_00000100#32 = some (.extract 1#3) := by decide
theorem test_decode_place : decode 0b000000000000000000_00_0_000_00000101#32 = some .place := by decide
theorem test_decode_stest24 : decode 0b000000000000000000_01_0_001_00000110#32 = some (.stest24 1#3) := by decide
theorem test_decode_stest16 : decode 0b000000000000000000_10_0_010_00000110#32 = some (.stest16 2#3) := by decide
theorem test_decode_stest8 : decode 0b000000000000000000_11_0_101_00000110#32 = some (.stest8 5#3) := by decide
theorem test_decode_red1 : decode 0b000000000000000000_00_1_000_00010000#32 = some (.red1 .b) := by decide
theorem test_decode_red2 : decode 0b000000000000000000_00_0_000_00010001#32 = some (.red2 .a) := by decide
theorem test_decode_red3 : decode 0b000000000000000000_00_1_000_00010010#32 = some (.red3 .b) := by decide
theorem test_decode_tsum : decode 0b000000000000000000_00_0_101_00010011#32 = some (.tsum 5#3) := by decide
theorem test_decode_zchk : decode 0b000000000000000000_00_1_000_00010100#32 = some (.zchk .b) := by decide
theorem test_decode_search : decode 0b000000000000000000_00_0_000_00100000#32 = some .search := by decide
theorem test_decode_resume : decode 0b000000000000000000_00_0_000_00100001#32 = some .resume := by decide
theorem test_decode_verify : decode 0b000000000000000000_00_0_000_00100010#32 = some .verify := by decide
theorem test_decode_abort : decode 0b000000000000000000_00_0_000_00101111#32 = some .abort := by decide

/-- E-3, E-4, E-8, E-9: out-of-range ARG values are legal words. -/
theorem test_decode_out_of_range_is_legal :
    [0x00000601#32, 0x00000701#32, 0x00000004#32, 0x00000504#32, 0x00000704#32].all (fun w => (decode w).isSome) = true := by
  decide

/-- E-5, E-6, E-10, E-13, E-14, E-16, E-18, E-20, E-22, E-23, E-24. -/
theorem test_decode_badCmd :
    [0x00000801#32, 0x00001001#32, 0x00000105#32, 0x00000006#32, 0x00003806#32, 0x00003E06#32, 0x00000110#32, 0x00000813#32,
      0x00001014#32, 0x00000120#32, 0x0000082F#32, 0x00004000#32, 0x80000000#32, 0xFFFFFFFF#32, 0x00000007#32, 0x0000000F#32,
      0x00000015#32, 0x0000001F#32, 0x00000023#32, 0x0000002E#32, 0x00000030#32, 0x000000FF#32].all
      (fun w => (decode w).isNone) = true := by decide

/-- R118, column "encoding". -/
theorem test_encode :
    [Instr.nop, .vclr 5, .vflip 1, .vtest 2, .extract 4, .place, .stest24 3, .stest16 2, .stest8 5, .red1 .b, .red2 .a,
      .red3 .b, .tsum 5, .zchk .b, .search, .resume, .verify, .abort].map encode =
    [0x00000000#32, 0x00000501#32, 0x00000102#32, 0x00000203#32, 0x00000404#32, 0x00000005#32, 0x00001306#32, 0x00002206#32,
      0x00003506#32, 0x00000810#32, 0x00000011#32, 0x00000812#32, 0x00000513#32, 0x00000814#32, 0x00000020#32, 0x00000021#32,
      0x00000022#32, 0x0000002F#32] := by decide

theorem test_decodeTableWord : decodeTableWord 32 0x00000810 = some (.red1 .b) ∧ decodeTableWord 32 0x00000801 = none := by
  decide

/-! ## One step -/

/-- The next state of an outcome; the reset state where there is none. -/
def nextOf : Result → State
  | .next s => s
  | _ => State.reset

/-- The outcome is a next state. -/
def answers : Result → Bool
  | .next _ => true
  | _ => false

theorem eq_next_of_answers {r : Result} (h : answers r = true) : r = .next (nextOf r) := by
  cases r <;> first | rfl | cases h

/-- A submission on the host's turn, and then the engine's step. -/
def command (w : Word) (s : State) : State :=
  nextOf (step (nextOf (step { s with turns := [.write 0#5 w, .engine] })))

/-- A host write. -/
def put (a : BitVec 5) (d : Word) (s : State) : State := nextOf (step { s with turns := [.write a d] })

/-- The command's EXEC step on a state whose scratch is all valid. -/
def busyState : State :=
  { State.reset with phase := .exec, configId := 1#3, vinit := Vector.replicate 6 true, validA := ⟨true, true, true⟩,
                     validB := ⟨true, true, true⟩ }

/-- The same at rest. -/
def idleState : State := { busyState with phase := .idle }

/-- X-11. -/
theorem test_nop : command 0x00000000#32 State.reset = { State.reset with done := true } := by decide

/-- withFetchWord puts the command where step takes its next one from: the submission of X-11; an illegal Word steps too (E-5). -/
theorem test_withFetchWord :
    nextOf (step (State.reset.withFetchWord 32 0)) = { State.reset with phase := .exec } ∧
    answers (step (State.reset.withFetchWord 32 0x00000801)) = true := by decide

/-- M-1, M-2. -/
theorem test_vclr :
    (hostRead 1#5 (command 0x00000001#32 State.reset) = 0x00010002#32) ∧
    (hostRead 1#5 (command 0x00000101#32 (command 0x00000001#32 State.reset)) = 0x00030002#32) := by decide

/-- M-7. -/
theorem test_vclr_slot :
    (fun s => (hostRead 1#5 s, hostRead 17#5 s)) (put 0#5 0x00000601#32 State.reset) = (0x00000400#32, 0x00000601#32) := by
  decide

/-- M-3, M-4 and M-8: a flip sets the bit, a second one cancels it, and the set's valid bits are cleared. -/
theorem test_vflip :
    (nextOf (exec (.vflip 0) { busyState with idx := 0x01020304#32 })).v32[0] = [0x01020304] ∧
    (nextOf (exec (.vflip 0) { busyState with idx := 0x01020304#32, v32 := busyState.v32.set 0 [0x01020304] })).v32[0] = [] ∧
    (nextOf (exec (.vflip 0) busyState)).validA = ⟨false, false, false⟩ ∧
    (nextOf (exec (.vflip 0) busyState)).validB = ⟨true, true, true⟩ := by decide

/-- M-6. -/
theorem test_vflip_uninit :
    (fun s => (hostRead 1#5 s, hostRead 17#5 s)) (put 0#5 0x00000002#32 State.reset) = (0x00000500#32, 0x00000002#32) := by
  decide

/-- M-3. -/
theorem test_vtest :
    (nextOf (exec (.vtest 0) { busyState with idx := 0x01020304#32, v32 := busyState.v32.set 0 [0x01020304] })).result = 1#32 ∧
    (nextOf (exec (.vtest 0) { busyState with idx := 0x01020305#32, v32 := busyState.v32.set 0 [0x01020304] })).result = 0#32 := by
  decide

/-- The block of X-1 to X-4. -/
def countingBlock : Block := Vector.ofFn fun n => BitVec.ofNat 8 (0x10 + n.val)

/-- X-1, X-2, X-3, X-4. -/
theorem test_extract :
    [1#3, 2#3, 3#3, 4#3].map (fun id => (nextOf (exec (.extract id) { busyState with ct := countingBlock })).idx) =
      [0x101D1A17#32, 0x14111E1B#32, 0x1815121F#32, 0x1C191613#32] := by decide

/-- X-10. -/
theorem test_extract_cfgId :
    (fun s => (hostRead 1#5 s, hostRead 17#5 s, s.idx)) (put 0#5 0x00000504#32 State.reset) =
      (0x00000100#32, 0x00000504#32, 0#32) := by decide

/-- X-5, X-6, X-7, X-8. -/
theorem test_place :
    [1#3, 2#3, 3#3, 4#3].map (fun id =>
      let t := nextOf (exec .place { busyState with configId := id, kg := 0xAABBCCDD#32 })
      [hostRead 12#5 t, hostRead 13#5 t, hostRead 14#5 t, hostRead 15#5 t]) =
      [[0x000000AA#32, 0xDD000000#32, 0x00CC0000#32, 0x0000BB00#32], [0x0000BB00#32, 0x000000AA#32, 0xDD000000#32, 0x00CC0000#32],
       [0x00CC0000#32, 0x0000BB00#32, 0x000000AA#32, 0xDD000000#32], [0xDD000000#32, 0x00CC0000#32, 0x0000BB00#32, 0x000000AA#32]] := by
  decide

/-- X-9. -/
theorem test_place_cfgId :
    (fun s => (hostRead 1#5 s, hostRead 17#5 s)) (put 0#5 0x00000005#32 State.reset) = (0x00000100#32, 0x00000005#32) := by
  decide

/-- The scratch of R-1 in slot 0. -/
def scratchState : State :=
  { idleState with v24 := idleState.v24.set 0 [0x20C0D0, 0x330304, 0x330355], v16 := idleState.v16.set 0 [0x0004, 0x0055, 0xD0D0],
                   v8 := idleState.v8.set 0 [0x15, 0x40, 0x44] }

/-- The examples of R166, and M-10 with IDX = 0x00FFFFFF. -/
theorem test_stest24 :
    (command 0x00001006#32 { scratchState with idx := 0x00330304#32 }).result = 1#32 ∧
    (command 0x00001006#32 { scratchState with idx := 0x00330305#32 }).result = 0#32 ∧
    (command 0x00001006#32 { scratchState with idx := 0x00FFFFFF#32 }).done = true := by decide

/-- M-10. -/
theorem test_stest24_range : (put 0#5 0x00001006#32 { scratchState with idx := 0x01000000#32 }).err = some .range := by decide

/-- The example of R166. -/
theorem test_stest16 : (command 0x00002006#32 { scratchState with idx := 0x0000D0D0#32 }).result = 1#32 := by decide

/-- M-11. -/
theorem test_stest8 :
    (command 0x00003006#32 { scratchState with idx := 0x00000040#32 }).result = 1#32 ∧
    (command 0x00003106#32 { scratchState with idx := 0x00000040#32 }).result = 0#32 := by decide

/-- M-9. -/
theorem test_stest8_range :
    (fun s => (s.err, hostRead 17#5 s)) (put 0#5 0x00003006#32 { scratchState with idx := 0x00000100#32 }) =
      (some .range, 0x00003006#32) := by decide

/-- The table `n` of TC-P. -/
def tcp (n : Nat) (x : Byte) : Byte := BitVec.ofNat 8 (2 * n + 1) * x + 2#8 * x * x + BitVec.ofNat 8 n

/-- inverseMix of TC-P. -/
def tcpMix (x : Byte) : Byte := x.rotateLeft 3

/-- R-1 and R-3 (TC-ID). -/
theorem test_reduce1_tcid :
    reduce1 [0x01020304, 0x01020355, 0xA0B0C0D0] 0x10#8 0x20#8 id id = [0x20C0D0, 0x330304, 0x330355] ∧
    reduce1 [0x0102ABCD, 0x0201ABCD] 0x10#8 0x20#8 id id = [] := by decide

/-- R-2 (TC-P) and R-5. -/
theorem test_reduce1_tcp :
    reduce1 [0x01020304, 0x01020355, 0xA0B0C0D0] 0x10#8 0x20#8 (tcp 1) (tcp 2) = [0xC20304, 0xC20355, 0xC3C0D0] ∧
    reduce1 [0x01020304] 0x10#8 0x20#8 (tcp 4) (tcp 3) = [0x260304] := by decide

/-- R-1, R-2, R-5. -/
theorem test_reduce2 :
    reduce2 [0x20C0D0, 0x330304, 0x330355] 0x30#8 id = [0x0004, 0x0055, 0xD0D0] ∧
    reduce2 [0xC20304, 0xC20355, 0xC3C0D0] 0x30#8 (tcp 3) = [0x50D0, 0x7804, 0x7855] ∧
    reduce2 [0x260304] 0x30#8 (tcp 2) = [0x7504] := by decide

/-- R-1, R-2, R-5. -/
theorem test_reduce3 :
    reduce3 [0x0004, 0x0055, 0xD0D0] 0x40#8 id = [0x15, 0x40, 0x44] ∧
    reduce3 [0x50D0, 0x7804, 0x7855] 0x40#8 (tcp 4) = [0x44, 0x4B, 0xF0] ∧
    reduce3 [0x7504] 0x40#8 (tcp 1) = [0x98] := by decide

/-- The state of STATUS = 0x00070002 (M-2). -/
def clearedA : State :=
  { State.reset with done := true, vinit := #v[true, true, true, false, false, false] }

/-- R-6, R-4: the valid bits after each stage; the vectors are all-zero. -/
theorem test_red1 : hostRead 1#5 (command 0x00000010#32 clearedA) = 0x00470002#32 := by decide

/-- R-6 and R-7. -/
theorem test_red2 :
    hostRead 1#5 (command 0x00000011#32 (command 0x00000010#32 clearedA)) = 0x00C70002#32 ∧
    hostRead 17#5 (put 0#5 0x00000011#32 clearedA) = 0x00000011#32 := by decide

/-- R-6. -/
theorem test_red3 :
    hostRead 1#5 (command 0x00000012#32 (command 0x00000011#32 (command 0x00000010#32 clearedA))) = 0x01C70002#32 := by decide

/-- R-8. -/
theorem test_red1_uninit :
    (fun s => (s.err, hostRead 17#5 s)) (put 0#5 0x00000810#32 clearedA) = (some .uninit, 0x00000810#32) := by decide

/-- F-1, F-2, F-5. -/
theorem test_totalSum :
    [0x00#8, 0x50#8, 0xFF#8, 0x11#8].map (totalSum id [0x15, 0x40, 0x44]) = [0x11#8, 0x41#8, 0xEE#8, 0x00#8] ∧
    [0x00#8, 0x50#8, 0xFF#8].map (totalSum tcpMix [0x44, 0x4B, 0xF0]) = [0xFF#8, 0x7D#8, 0x00#8] ∧
    totalSum tcpMix [0x98] 0x5A#8 = 0x16#8 := by decide

/-- F-4. -/
theorem test_tsum : (command 0x00000013#32 { idleState with result := 7#32, k5 := 0x5A#8 }).result = 0#32 := by decide

/-- F-4. -/
theorem test_zchk : (command 0x00000014#32 { idleState with k5 := 0x5A#8 }).result = 1#32 := by decide

/-- F-6. -/
theorem test_tsum_zchk_uninit :
    (put 0#5 0x00000013#32 State.reset).errinfo = 0x00000013#32 ∧ (put 0#5 0x00000014#32 State.reset).err = some .uninit := by
  decide

/-- G-1. -/
theorem test_search_first_error_kept :
    (fun s => (hostRead 1#5 s, hostRead 17#5 s)) (put 0#5 0x00000601#32 (put 0#5 0x00000020#32 State.reset)) =
      (0x00000100#32, 0x00000020#32) := by decide

/-- `n` steps of the engine. -/
def engineRuns : Nat → State → State
  | 0, s => s
  | n + 1, s => engineRuns n (nextOf (step s))

/-- K-1: all vectors zero; the search is over after 8 engine steps with quadruple 0 found. -/
theorem test_search_finds_zero :
    (fun s => (s.phase, s.found, s.result, s.kg)) (engineRuns 8 (put 0#5 0x00000020#32 { idleState with kg := 5#32 })) =
      (.idle, true, 1#32, 0#32) := by decide

/-- K-8. -/
theorem test_resume :
    (fun s => (s.kg, s.k5, s.phase)) (put 0#5 0x00000021#32 { idleState with kg := 0xFFFF1234#32, k5 := 9#8 }) =
      (0xFFFF0000#32, 0#8, .pPair) := by decide

/-- K-4. -/
theorem test_resume_cfgId : (put 0#5 0x00000021#32 State.reset).errinfo = 0x00000021#32 := by decide

/-- K-5. -/
theorem test_verify :
    (put 0#5 0x00000022#32 { State.reset with vinit := #v[false, false, false, true, true, true] }).phase = .vS1 := by decide

/-- K-7. -/
theorem test_abort_idle :
    (fun s => (s.done, s.abortReq, hostRead 0#5 s)) (command 0x0000002F#32 State.reset) = (true, false, 0x0000002F#32) := by
  decide

/-- K-9, K-10. -/
theorem test_adv :
    ([0x000000FF#32, 0x0000FFFF#32, 0x00000012#32].map fun kg =>
      let t := nextOf (step { idleState with phase := .adv, cmdLatch := 0x00000020#32, kg := kg }); (t.kg, t.phase)) =
      [(0x00000100#32, .pK3), (0x00010000#32, .pPair), (0x00000013#32, .pK4)] ∧
    (fun t : State => (t.result, t.done, t.phase, t.kg))
      (nextOf (step { idleState with phase := .adv, cmdLatch := 0x00000020#32, kg := 0xFFFFFFFF#32, result := 9#32 })) =
      (0#32, true, .idle, 0xFFFFFFFF#32) := by decide

/-- G-2, G-3, G-4. -/
theorem test_errors :
    hostRead 1#5 (put 1#5 0x00000100#32 (put 0#5 0x00000020#32 State.reset)) = 0#32 ∧
    hostRead 1#5 (put 0#5 0x00000702#32 State.reset) = 0x00000400#32 ∧
    (put 0#5 0x00000020#32 State.reset).err = some .cfgId := by decide

/-- G-5, G-6. -/
theorem test_registers :
    hostRead 3#5 (put 3#5 0xFFFFFFFF#32 State.reset) = 0x00FFFF07#32 ∧
    hostRead 5#5 (put 5#5 0xFFFFFFFF#32 State.reset) = 0x000000FF#32 := by decide

/-- G-8, G-9. -/
theorem test_busy :
    (fun s => (s.kg, errField s, s.errinfo)) (put 4#5 0x12345678#32 busyState) = (0#32, 7#4, 0x00000010#32) ∧
    (fun s => (s.phase, errField s, s.errinfo)) (put 0#5 0x00000000#32 busyState) = (.exec, 3#4, 0#32) := by decide

/-! ## Witnesses: what meets the hypotheses of each statement -/

/-- A host's turn that writes `d` at `a`. -/
def writing (a : BitVec 5) (d : Word) (s : State) : State := { s with turns := [.write a d] }

/-- A phase of the controller, the engine's turn, with the SEARCH word latched. -/
def inPhase (p : Phase) : State := { idleState with phase := p, cmdLatch := 0x00000020#32 }

/-- The engine's EXEC step of the latched Word. -/
def latched (w : Word) : State := { busyState with cmdLatch := w }

theorem witness_LegalWordIsItsEncoding : ∃ (w : Word) (i : Instr), decode w = some i := ⟨0x00000501#32, .vclr 5, by decide⟩

theorem witness_StepRunsSubmittedCommand : ∃ (s : State) (w : Word) (rest : List Turn) (i : Instr),
    s.turns = .write 0#5 w :: rest ∧ decode w = some i :=
  ⟨writing 0#5 0x00000010#32 idleState, 0x00000010#32, [], .red1 .a, by decide⟩

theorem witness_StepRunsLatchedCommand :
    ((latched 0x00000810#32).turns = [] ∧ (latched 0x00000810#32).phase ≠ .idle ∧
      decode (latched 0x00000810#32).cmdLatch = some (.red1 .b)) ∧
    (∃ rest, ({ latched 0#32 with turns := [.engine, .reset] } : State).turns = .engine :: rest) ∧
    idleState.turns = [] ∧ idleState.phase = .idle := by
  refine ⟨by decide, ⟨[.reset], rfl⟩, by decide⟩

/-- A host's turn that submits `w` to an idle block in state `s`, and the command `w` stands for. -/
def submits (w : Word) (i : Instr) (s : State) : Prop :=
  (writing 0#5 w s).turns = [.write 0#5 w] ∧ (writing 0#5 w s).phase = .idle ∧ decode w = some i

/-- Steps 1 and 2 of R280: ABORT and another Word while busy; an illegal Word while idle. -/
theorem witness_CommandWriteFollowsTheCheckOrder_busy :
    ((writing 0#5 0x0000002F#32 busyState).turns = [.write 0#5 0x0000002F#32] ∧
      (writing 0#5 0x0000002F#32 busyState).phase ≠ .idle) ∧
    ((writing 0#5 0x00000000#32 busyState).turns = [.write 0#5 0x00000000#32] ∧
      (writing 0#5 0x00000000#32 busyState).phase ≠ .idle ∧ 0x00000000#32 ≠ 0x0000002F#32) ∧
    ((writing 0#5 0x00000801#32 idleState).turns = [.write 0#5 0x00000801#32] ∧
      (writing 0#5 0x00000801#32 idleState).phase = .idle ∧ decode 0x00000801#32 = none) := by decide

/-- Steps 3 to 7 of R280, each at the boundary of its operand: slots 6 and 7, ids 0 and 5, an uninitialised slot, IDX = 2^8;
and what passes every check, IDX = 2^8 - 1 and slot 5 among it. -/
theorem witness_CommandWriteFollowsTheCheckOrder_idle :
    (submits 0x00000601#32 (.vclr 6) idleState ∧ slotError (.vclr 6)) ∧
    (submits 0x00000702#32 (.vflip 7) idleState ∧ slotError (.vflip 7)) ∧
    (submits 0x00000004#32 (.extract 0) idleState ∧ ¬slotError (.extract 0) ∧
      idError (.extract 0) (writing 0#5 0x00000004#32 idleState)) ∧
    (submits 0x00000504#32 (.extract 5) idleState ∧ ¬slotError (.extract 5) ∧
      idError (.extract 5) (writing 0#5 0x00000504#32 idleState)) ∧
    (submits 0x00000502#32 (.vflip 5) State.reset ∧ ¬slotError (.vflip 5) ∧
      ¬idError (.vflip 5) (writing 0#5 0x00000502#32 State.reset) ∧
      uninitError (.vflip 5) (writing 0#5 0x00000502#32 State.reset)) ∧
    (submits 0x00003506#32 (.stest8 5) { idleState with idx := 0x100#32 } ∧ ¬slotError (.stest8 5) ∧
      ¬idError (.stest8 5) (writing 0#5 0x00003506#32 { idleState with idx := 0x100#32 }) ∧
      ¬uninitError (.stest8 5) (writing 0#5 0x00003506#32 { idleState with idx := 0x100#32 }) ∧
      rangeError (.stest8 5) (writing 0#5 0x00003506#32 { idleState with idx := 0x100#32 })) ∧
    (submits 0x00003506#32 (.stest8 5) { idleState with idx := 0xFF#32 } ∧
      admissible (.stest8 5) (writing 0#5 0x00003506#32 { idleState with idx := 0xFF#32 })) ∧
    (submits 0x00000020#32 .search idleState ∧ admissible .search (writing 0#5 0x00000020#32 idleState)) := by
  simp only [submits, slotError, slotArg, idError, uninitError, rangeError, admissible]
  refine ⟨?_, ?_, ?_, ?_, ?_, ?_, ?_, ?_⟩ <;> decide

theorem witness_RaiseKeepsTheFirstError :
    State.reset.err = none ∧ ({ State.reset with err := some .slot } : State).err ≠ none := by decide

theorem witness_ErrorRecordChangesOnlyByHostWrites : ∃ s t : State,
    step s = .next t ∧ (∀ a d rest, s.turns ≠ .write a d :: rest) ∧ (∀ rest, s.turns ≠ .reset :: rest) :=
  ⟨latched 0#32, _, eq_next_of_answers (by decide), nofun, nofun⟩

/-- The protected addresses at their boundaries, STATUS, CTRL, and a read. -/
theorem witness_BusyRegisterWriteRejected :
    ([3#5, 6#5, 8#5, 15#5].all fun a => decide ((writing a 1#32 busyState).turns = [.write a 1#32] ∧
      (writing a 1#32 busyState).phase ≠ .idle ∧ protectedReg a)) = true ∧
    (writing 1#5 0x100#32 busyState).turns = [.write 1#5 0x100#32] ∧ (writing 2#5 3#32 busyState).turns = [.write 2#5 3#32] ∧
    ({ busyState with turns := [.read 31#5] } : State).turns = [.read 31#5] := by decide

theorem witness_ReservedOffsetsHoldNothing :
    ([7#5, 16#5, 17#5, 18#5, 31#5].all fun a => decide ((18 ≤ a.toNat ∨ a = 7#5 ∨ a = 16#5 ∨ a = 17#5) ∧
      (writing a 1#32 busyState).turns = [.write a 1#32])) = true := by decide

theorem witness_HostReadHasNoSideEffect : ∃ (s : State) (a : BitVec 5) (rest : List Turn), s.turns = .read a :: rest :=
  ⟨{ busyState with turns := [.read 1#5] }, 1#5, [], rfl⟩

theorem witness_RegisterWritesReadBack :
    ([1#5, 2#5, 3#5, 4#5, 5#5, 6#5].all fun a => decide ((writing a 0xFFFFFFFF#32 idleState).turns = [.write a 0xFFFFFFFF#32] ∧
      (writing a 0xFFFFFFFF#32 idleState).phase = .idle)) = true := by decide

theorem witness_BlockWordWrites : ∀ n : Fin 4,
    (writing (BitVec.ofNat 5 (8 + n.val)) 1#32 idleState).phase = .idle ∧
    (writing (BitVec.ofNat 5 (8 + n.val)) 1#32 idleState).turns = [.write (BitVec.ofNat 5 (8 + n.val)) 1#32] ∧
    (writing (BitVec.ofNat 5 (12 + n.val)) 1#32 idleState).turns = [.write (BitVec.ofNat 5 (12 + n.val)) 1#32] := by decide

/-- NopAndIdleAbortOnlyComplete. -/
theorem witness_engineExec : engineExec busyState := by decide

/-- ExtractGathersTheAntiDiagonal, ExtractAndPlaceAreInverse: every legal id. -/
theorem witness_legalId : engineExec busyState ∧ legalId 1#3 ∧ legalId 2#3 ∧ legalId 3#3 ∧ legalId 4#3 := by decide

theorem witness_PlaceScattersTheQuadruple : ∀ id ∈ [1#3, 2#3, 3#3, 4#3],
    engineExec { busyState with configId := id } ∧ legalId ({ busyState with configId := id } : State).configId := by decide

/-- VclrClearsTheSlot, VflipFlipsExactlyOneBit: every slot. -/
theorem witness_slots : ∀ k : Slot, engineExec busyState ∧ (BitVec.ofNat 3 k.val).toNat = k.val ∧ busyState.vinit[k] = true := by
  decide

/-- BitTestsReadIntoResult: every slot, the greatest index of each width. -/
theorem witness_BitTestsReadIntoResult : ∀ k : Slot,
    engineExec { busyState with idx := 0x00FFFFFF#32 } ∧ (BitVec.ofNat 3 k.val).toNat = k.val ∧ busyState.vinit[k] = true ∧
    ((validOf (setOfArg (BitVec.ofNat 3 k.val)) busyState).sv24 = true ∧ (0x00FFFFFF#32).toNat < 2 ^ 24) ∧
    ((validOf (setOfArg (BitVec.ofNat 3 k.val)) busyState).sv16 = true ∧ (0x0000FFFF#32).toNat < 2 ^ 16) ∧
    ((validOf (setOfArg (BitVec.ofNat 3 k.val)) busyState).sv8 = true ∧ (0x000000FF#32).toNat < 2 ^ 8) := by decide

theorem witness_FlipSequenceKeepsTheParityInvariant :
    ∃ (s : State) (arg : BitVec 3) (k : Slot) (is : List Word), s.phase = .idle ∧ arg.toNat = k.val ∧ s.vinit[k] = true ∧
      s.turns = flipTurns arg is ∧ is ≠ [] :=
  ⟨{ idleState with turns := flipTurns 5#3 [0xFFFFFFFF#32, 0#32, 0#32] }, 5#3, 5, [0xFFFFFFFF#32, 0#32, 0#32], by decide⟩

theorem witness_Width32VectorsChangeOnlyByLoads : ∃ (s t : State) (k : Slot) (i : Nat), step s = .next t ∧
    (∀ rest, s.turns ≠ .reset :: rest) ∧ memRead t.v32[k] i ≠ memRead s.v32[k] i :=
  ⟨{ latched 0x00000502#32 with idx := 0xFFFFFFFF#32 }, _, 5, 0xFFFFFFFF, eq_next_of_answers (by decide), nofun, by decide⟩

/-- Red1ReducesEveryRow, Red2ReducesEveryRow, Red3ReducesEveryRow, ZchkPutsTheZeroConditionIntoResult: both sets. -/
theorem witness_sets : ∀ x ∈ [RowSet.a, .b], engineExec busyState ∧ (∀ r : Fin 3, busyState.vinit[slotAt x r] = true) ∧
    (validOf x busyState).sv24 = true ∧ (validOf x busyState).sv16 = true ∧ (validOf x busyState).sv8 = true := by decide

/-- Reduce1ClosedForm, ThreeStagesAreExact, TotalSumEqualsTheDirectSum; Reduce2ClosedForm; Reduce3ClosedForm;
TotalSumClosedForm. -/
theorem witness_wf : Memory.wf 32 [0, 0xFFFFFFFF] ∧ Memory.wf 24 [0, 0xFFFFFF] ∧ Memory.wf 16 [0, 0xFFFF] ∧
    Memory.wf 8 [0, 0xFF] := by decide

theorem witness_TsumPutsTheSumIntoResult : ∀ k : Slot, engineExec busyState ∧ (BitVec.ofNat 3 k.val).toNat = k.val ∧
    (validOf (setOfArg (BitVec.ofNat 3 k.val)) busyState).sv8 = true := by decide

theorem witness_SearchCommandsStartTheController :
    actor (writing 0#5 0x00000020#32 idleState) = .host ∧ (writing 0#5 0x00000020#32 idleState).phase = .idle ∧
    legalId idleState.configId ∧ (∀ k : Slot, idleState.vinit[k] = true) := by decide

theorem witness_AbortRequestsOnlyOfARunningSearch :
    (fun s : State => actor s = .host ∧ s.phase ≠ .idle ∧ s.phase ≠ .exec ∧ s.vonly = false)
      (writing 0#5 0x0000002F#32 (inPhase .pK5)) ∧
    (fun s : State => actor s = .host ∧ s.phase = .exec) (writing 0#5 0x0000002F#32 busyState) ∧
    (fun s : State => actor s = .host ∧ s.phase ≠ .idle ∧ s.vonly = true)
      (writing 0#5 0x0000002F#32 { inPhase .vS1 with vonly := true }) ∧
    (fun s : State => actor s = .host ∧ s.phase = .idle) (writing 0#5 0x0000002F#32 idleState) := by decide

/-- A request at P_PAIR; a phase after it; an EXEC step. -/
theorem witness_AbortTakesEffectAtThePairBoundary :
    (engineIn .pPair { inPhase .pPair with abortReq := true } ∧ ({ inPhase .pPair with abortReq := true } : State).abortReq = true) ∧
    (∃ (s t : State) (i : Instr), actor s = .engine ∧ s.phase = .adv ∧ exec i s = .next t) ∧
    ∃ (s t : State) (i : Instr), actor s = .engine ∧ s.phase = .exec ∧ exec i s = .next t :=
  ⟨by decide, ⟨inPhase .adv, _, .search, by decide, by decide, eq_next_of_answers (by decide)⟩,
    busyState, _, .vflip 5, by decide, by decide, eq_next_of_answers (by decide)⟩

/-- FirstRowPipelineSteps, SecondRowPipelineSteps, FirstRowZeroCheckStep. -/
theorem witness_phases : ∀ p ∈ [Phase.pPair, .pK3, .pK4, .pK5, .vS1, .vS2, .vS3, .vK5, .adv],
    engineIn p (inPhase p) ∧ (inPhase p).abortReq = false := by decide

/-- SecondRowZeroCheckStep: for VERIFY, and for a search with each legal id. -/
theorem witness_SecondRowZeroCheckStep :
    engineIn .vK5 { inPhase .vK5 with vonly := true } ∧
    ∀ id ∈ [1#3, 2#3, 3#3, 4#3], engineIn .vK5 { inPhase .vK5 with configId := id } ∧ (inPhase .vK5).vonly = false ∧
      legalId id := by decide

theorem witness_AdvanceVisitsTheNextQuadruple :
    engineIn .adv { inPhase .adv with kg := 0xFFFFFFFF#32 } ∧ engineIn .adv { inPhase .adv with kg := 0xFFFFFFFE#32 } ∧
    engineIn .adv { inPhase .adv with kg := 0x000000FF#32 } ∧ engineIn .adv { inPhase .adv with kg := 0x0000FFFF#32 } := by
  decide

theorem witness_FoundOnlyAfterSecondRowVerification : ∃ s t : State, step s = .next t ∧ s.found = false ∧ t.found = true :=
  ⟨inPhase .vK5, _, eq_next_of_answers (by decide), by decide, by decide⟩

/-- The acceptance of SEARCH, and the reset input. -/
theorem witness_FpcntCountsDiscardedCandidates :
    (∃ s t : State, step s = .next t ∧ t.fpcnt ≠ s.fpcnt ∧ s.turns = [.write 0#5 0x00000020#32]) ∧
    ∃ s t : State, step s = .next t ∧ t.fpcnt ≠ s.fpcnt ∧ s.turns = [.reset] :=
  ⟨⟨writing 0#5 0x00000020#32 { idleState with fpcnt := 5#32 }, _, eq_next_of_answers (by decide), by decide, rfl⟩,
    { idleState with fpcnt := 5#32, turns := [.reset] }, _, eq_next_of_answers (by decide), by decide, rfl⟩

/-- A search at its last K5V, a single bit in the width-8 vector of slot 3. -/
def lastGuess (z : Byte) : State := { inPhase .vK5 with k5v := 0xFF#8, v8 := (inPhase .vK5).v8.set 3 [z.toNat] }

/-- A failed verification: with one bit set, whatever inverseMix is, so long as it is not 0 at some byte (an inverseMix that is 0
everywhere lets no verification fail). -/
theorem witness_FpcntCountsDiscardedCandidates_failed (b : Byte) (h : Config.imix b ≠ 0#8) :
    ∃ s t : State, step s = .next t ∧ t.fpcnt ≠ s.fpcnt ∧ engineIn .vK5 s := by
  have hz : zeroCondition .b 0xFF#8 (lastGuess (b ^^^ 0xFF#8)) = false := by
    have h0 : rowZero .b 0xFF#8 (lastGuess (b ^^^ 0xFF#8)) 0 = (Config.imix (b ^^^ 0xFF#8 ^^^ 0xFF#8) == 0#8) := by
      simp [rowZero, lastGuess, slotAt, totalSum]
    have h1 : b ^^^ 0xFF#8 ^^^ 0xFF#8 = b := by rw [BitVec.xor_assoc]; simp
    simp [zeroCondition, h0, h1, h]
  have hd : decode (lastGuess (b ^^^ 0xFF#8)).cmdLatch = some .search := by show decode 0x00000020#32 = _; decide
  have ht : step (lastGuess (b ^^^ 0xFF#8)) = .next (endTurn (vK5Step (lastGuess (b ^^^ 0xFF#8)))) := by
    have he : engineTurn (lastGuess (b ^^^ 0xFF#8)) = exec .search (lastGuess (b ^^^ 0xFF#8)) := by
      rw [engineTurn, hd]; rfl
    rw [step, takeTurn_nil rfl, he, exec_engine_controller .search rfl (by exact Phase.noConfusion) (by exact Phase.noConfusion)]
    rfl
  refine ⟨lastGuess (b ^^^ 0xFF#8), _, ht, ?_, rfl, rfl⟩
  have hs : vK5Step (lastGuess (b ^^^ 0xFF#8)) =
      { lastGuess (b ^^^ 0xFF#8) with fpcnt := saturatingSucc (lastGuess (b ^^^ 0xFF#8)).fpcnt, phase := .adv } := by
    unfold vK5Step
    rw [show (lastGuess (b ^^^ 0xFF#8)).k5v = 0xFF#8 from rfl, hz]
    rfl
  rw [hs]
  show saturatingSucc 0#32 ≠ 0#32
  decide

theorem witness_KeyBytesChangeOnlyByPlacementOrHost : ∃ (s t : State) (n : Fin 16), step s = .next t ∧
    (∀ rest, s.turns ≠ .reset :: rest) ∧ t.key[n] ≠ s.key[n] :=
  ⟨{ latched 0x00000005#32 with kg := 0xAABBCCDD#32 }, _, 0, eq_next_of_answers (by decide), nofun, by decide⟩

theorem witness_VinitIsSetByVclrAndNeverCleared : ∃ (s t : State) (k : Slot), step s = .next t ∧
    (∀ rest, s.turns ≠ .reset :: rest) ∧ s.vinit[k] = false ∧ t.vinit[k] = true ∧ s.vinit[(0 : Slot)] = true :=
  ⟨{ clearedA with done := false, phase := .exec, cmdLatch := 0x00000501#32 }, _, 5, eq_next_of_answers (by decide), nofun,
    by decide, by decide, by decide⟩

theorem witness_VerifyRunsToItsVerdict :
    (fun s : State => s.phase = .idle ∧ s.turns = [.write 0#5 0x00000022#32] ∧ s.abortReq = false ∧ s.vinit[3] = true ∧
      s.vinit[4] = true ∧ s.vinit[5] = true) (writing 0#5 0x00000022#32 idleState) := by decide

theorem witness_SearchFindsTheLeastVerifiedQuadruple : ∀ w ∈ [0x00000020#32, 0x00000021#32],
    (fun s : State => s.phase = .idle ∧ s.turns = [.write 0#5 w] ∧ s.abortReq = false ∧ legalId s.configId ∧
      ∀ k : Slot, s.vinit[k] = true) (writing 0#5 w { idleState with kg := 0xFFFF1234#32, fpcnt := 7#32 }) := by
  intro w hw
  rcases List.mem_pair.1 hw with rfl | rfl <;> decide

theorem witness_ResumeReentersTheAbortedPair :
    (fun s : State => s.phase = .pPair ∧ s.abortReq = true ∧ s.vonly = false ∧ s.found = false ∧ s.aborted = false ∧
      s.done = false ∧ s.kg.toNat % 2 ^ 16 = 0 ∧ legalId s.configId ∧ (∀ k : Slot, s.vinit[k] = true) ∧
      decode s.cmdLatch = some .search ∧ s.turns = [.engine, .write 0#5 0x00000021#32])
      { inPhase .pPair with abortReq := true, kg := 0xFFFF0000#32, turns := [.engine, .write 0#5 0x00000021#32] } := by decide

/-- StepKeepsCoherence, CoherentStatesNeverStop, EveryCommandFinishes: the EXEC step of TSUM is pending. -/
theorem witness_Coherent : Coherent (latched 0x00000513#32) ∧ (latched 0x00000513#32).turns = [] ∧
    ∃ t, step (latched 0x00000513#32) = .next t :=
  ⟨⟨by decide, by decide, by decide, fun _ => rfl, by decide, by decide, ⟨rfl, rfl, by decide⟩⟩, rfl, _,
    eq_next_of_answers (by decide)⟩

/-- StepKeepsThePipelineFresh: a search about to check all-zero vectors, which are fresh. -/
theorem witness_Derived : Derived (inPhase .pK5) ∧ ∃ t, step (inPhase .pK5) = .next t :=
  ⟨⟨by intro r; revert r; decide, by intro r; revert r; decide, by intro r; revert r; decide⟩, _,
    eq_next_of_answers (by decide)⟩

/-- UncoveredVectorsAreUnobservable: two states that differ in a vector never cleared. -/
theorem witness_UncoveredVectorsAreUnobservable :
    Coherent clearedA ∧ sameButUncovered clearedA { clearedA with v32 := clearedA.v32.set 5 [7] } ∧
    clearedA ≠ { clearedA with v32 := clearedA.v32.set 5 [7] } ∧ ∃ t, step clearedA = .next t :=
  ⟨⟨by decide, by decide, by decide, fun _ => rfl, by decide, by decide, rfl⟩, ⟨rfl, by decide⟩, by decide, _,
    eq_next_of_answers (by decide)⟩

/-- Both sides of each clause: the first failing check of each kind at its boundary, the three commands without an EXEC step, and
an illegal CMDLATCH on both forms of the engine's turn. -/
theorem witness_EngineStopsOnlyOutsideTheRules :
    (engineExec busyState ∧ firstError (.vclr 6) busyState .slot) ∧
    (engineExec { busyState with configId := 5#3 } ∧ firstError .place { busyState with configId := 5#3 } .cfgId) ∧
    (engineExec { busyState with vinit := Vector.replicate 6 false } ∧
      firstError (.vflip 5) { busyState with vinit := Vector.replicate 6 false } .uninit) ∧
    (engineExec { busyState with idx := 0x01000000#32 } ∧
      firstError (.stest24 0) { busyState with idx := 0x01000000#32 } .range) ∧
    (exec .search busyState = .fault .noExecStep ∧ exec (.vclr 6) busyState = .fault (.precondition .slot)) ∧
    ((latched 0x00000801#32).phase ≠ .idle ∧ decode (latched 0x00000801#32).cmdLatch = none) ∧
    (engineNext (latched 0x00000801#32) ∧ step (latched 0x00000801#32) = .fault .latchIllegal) ∧
    (engineNext { latched 0x00000801#32 with turns := [.engine] } ∧
      step { latched 0x00000801#32 with turns := [.engine] } = .fault .latchIllegal) := by
  simp only [firstError, slotError, slotArg, idError, uninitError, rangeError]
  refine ⟨?_, ?_, ?_, ?_, ⟨rfl, rfl⟩, ?_, ⟨.inl rfl, rfl⟩, .inr ⟨[], rfl⟩, rfl⟩ <;> decide

theorem witness_ResetRestoresTheResetValues : ({ inPhase .vK5 with turns := [.reset] } : State).turns = [.reset] := rfl

end Sys2Proof.Tests
end

section
/-! The host's register turns (10_state.md R31 to R48): a host write to any register but CMD as one step, and the registers
that ignore every write. -/

namespace Sys2Proof.Machine

/-- The turn at the head of `turns` is over. -/
theorem endTurn_of_cons {s : State} {t : Turn} {rest : List Turn} (h : s.turns = t :: rest) :
    endTurn s = { s with turns := rest } := by simp [endTurn, h]

/-- R34: only a write to CMD is a command. -/
theorem hostWriteTurn_of_ne_cmd {a : BitVec 5} (ha : regAt a ≠ .cmd) (d : Word) (s : State) :
    hostWriteTurn a d s = .next (hostWrite a d s) := by
  unfold hostWriteTurn
  split
  · contradiction
  · rfl

/-- R31: the step of a host write to a register other than CMD. -/
theorem step_write_register {s : State} {a : BitVec 5} {d : Word} {rest : List Turn} (ha : regAt a ≠ .cmd)
    (h : s.turns = .write a d :: rest) : step s = .next (endTurn (hostWrite a d s)) := by
  rw [step, takeTurn_write h, hostWriteTurn_of_ne_cmd ha, mapNext_next]

/-- R47, R48: what ignores every host write: the read-only registers RESULT, FPCNT and ERRINFO, and the reserved offsets.
STATUS is not one: a write to it clears the error record (R274). -/
inductive Reg.IgnoresWrites : Reg → Prop where
  | result : Reg.IgnoresWrites .result
  | fpcnt : Reg.IgnoresWrites .fpcnt
  | errinfo : Reg.IgnoresWrites .errinfo
  | reserved : Reg.IgnoresWrites .reserved

theorem Reg.IgnoresWrites.ne_cmd {r : Reg} (h : r.IgnoresWrites) : r ≠ .cmd := by
  cases h <;> decide

/-- R32, R47: the word addresses whose writes are ignored. -/
theorem regAt_ignoresWrites {a : BitVec 5} (h : 18 ≤ a.toNat ∨ a = 7#5 ∨ a = 16#5 ∨ a = 17#5) :
    (regAt a).IgnoresWrites := by
  rcases h with h | rfl | rfl | rfl
  · rw [regAt_reserved h]
    exact .reserved
  · exact .result
  · exact .fpcnt
  · exact .errinfo

/-- R47, R48: an ignored write changes nothing and records no error, busy or not. -/
theorem hostWrite_of_ignoresWrites {a : BitVec 5} (ha : (regAt a).IgnoresWrites) (d : Word) (s : State) :
    hostWrite a d s = s := by
  unfold hostWrite
  generalize regAt a = r at ha ⊢
  cases ha <;> rfl

/-- R47, R48: the step of an ignored write only takes its turn. -/
theorem step_write_ignored {s : State} {a : BitVec 5} {d : Word} {rest : List Turn} (ha : (regAt a).IgnoresWrites)
    (h : s.turns = .write a d :: rest) : step s = .next { s with turns := rest } := by
  rw [step_write_register ha.ne_cmd h, hostWrite_of_ignoresWrites ha, endTurn_of_cons h]

/-- R47: a read of a reserved offset returns 0. -/
theorem hostRead_reserved {a : BitVec 5} (h : 18 ≤ a.toNat) (s : State) : hostRead a s = 0#32 := by
  rw [hostRead, regAt_reserved h, readReg]

/-- Settles O11: every address named is one whose register ignores writes, and a reserved one reads 0. -/
theorem reservedOffsetsHoldNothing : Obligations.ReservedOffsetsHoldNothing := fun s _ _ _ =>
  ⟨fun ha => hostRead_reserved ha s, fun ha h => step_write_ignored (regAt_ignoresWrites ha) h⟩

end Sys2Proof.Machine
end

section
/-! The opcode table selects words (30_encoding.md R112, R114). A word is its five fields; the decoder answers a command exactly
on the command's own word; a row's mask leaves free the one field the row has as its operand. -/

namespace Sys2Proof

/-- R112: the word of five fields is read back field by field. -/
@[simp] theorem fieldsOf_wordOf (f : Fields) : fieldsOf (wordOf f) = f := by
  obtain ⟨op, arg, set, stg, rsv⟩ := f
  simp only [fieldsOf, wordOf, Fields.mk.injEq]
  refine ⟨?_, ?_, ?_, ?_, ?_⟩ <;> ext k hk <;> simp <;> grind

/-- R112: the five fields cover every bit of the word. -/
@[simp] theorem wordOf_fieldsOf (w : Word) : wordOf (fieldsOf w) = w := by
  ext k hk
  simp [wordOf, fieldsOf]
  grind

theorem fieldsOf_and (v w : Word) : fieldsOf (v &&& w) =
    ⟨(fieldsOf v).op &&& (fieldsOf w).op, (fieldsOf v).arg &&& (fieldsOf w).arg, (fieldsOf v).set &&& (fieldsOf w).set,
      (fieldsOf v).stg &&& (fieldsOf w).stg, (fieldsOf v).rsv &&& (fieldsOf w).rsv⟩ := by
  simp only [fieldsOf, BitVec.extractLsb'_and]

@[simp] theorem rowSetOf_rowSetBit (x : RowSet) : rowSetOf (rowSetBit x) = x := by cases x <;> rfl

@[simp] theorem rowSetBit_rowSetOf (b : BitVec 1) : rowSetBit (rowSetOf b) = b := by revert b; decide

/-! ### The decoder answers a command exactly on its word -/

/-- What a decoder of fields answers, if anything, is a command with these fields. -/
def AnswersEncoding (f : Fields) (o : Option Instr) : Prop := ∀ i, o = some i → encodeFields i = f

theorem AnswersEncoding.none {f : Fields} : AnswersEncoding f none := nofun

theorem AnswersEncoding.some {f : Fields} {i : Instr} (h : encodeFields i = f) : AnswersEncoding f (some i) :=
  fun _ hi => Option.some.inj hi ▸ h

theorem AnswersEncoding.ite {f : Fields} {c : Prop} [Decidable c] {o p : Option Instr} (ho : c → AnswersEncoding f o)
    (hp : AnswersEncoding f p) : AnswersEncoding f (if c then o else p) := by
  split
  next hc => exact ho hc
  next => exact hp

theorem bare_answersEncoding {f : Fields} {op : Byte} {i : Instr} (hrsv : f.rsv = 0#18)
    (hi : encodeFields i = ⟨op, 0#3, 0#1, 0#2, 0#18⟩) (hop : f.op = op) : AnswersEncoding f (bare f i) :=
  .ite (fun ⟨harg, hset, hstg⟩ => .some (by rw [hi, ← hop, ← harg, ← hset, ← hstg, ← hrsv])) .none

theorem withArg_answersEncoding {f : Fields} {op : Byte} {stg : BitVec 2} {i : BitVec 3 → Instr} (hrsv : f.rsv = 0#18)
    (hi : ∀ a, encodeFields (i a) = ⟨op, a, 0#1, stg, 0#18⟩) (hop : f.op = op) : AnswersEncoding f (withArg f stg i) :=
  .ite (fun ⟨hset, hstg⟩ => .some (by rw [hi, ← hop, ← hset, ← hstg, ← hrsv])) .none

theorem withSet_answersEncoding {f : Fields} {op : Byte} {i : RowSet → Instr} (hrsv : f.rsv = 0#18)
    (hi : ∀ x, encodeFields (i x) = ⟨op, 0#3, rowSetBit x, 0#2, 0#18⟩) (hop : f.op = op) :
    AnswersEncoding f (withSet f i) :=
  .ite (fun ⟨harg, hstg⟩ => .some (by rw [hi, rowSetBit_rowSetOf, ← hop, ← harg, ← hstg, ← hrsv])) .none

/-- R166: the three rows of STEST. -/
theorem decodeStest_answersEncoding {f : Fields} (hrsv : f.rsv = 0#18) (hop : f.op = 0x06#8) :
    AnswersEncoding f (decodeStest f) :=
  .ite (fun _ => withArg_answersEncoding hrsv (fun _ => rfl) hop) <|
  .ite (fun _ => withArg_answersEncoding hrsv (fun _ => rfl) hop) <|
  .ite (fun _ => withArg_answersEncoding hrsv (fun _ => rfl) hop) .none

/-- R114: row by row, in the order of the decoder. -/
theorem decodeFields_answersEncoding {f : Fields} (hrsv : f.rsv = 0#18) : AnswersEncoding f (decodeFields f) :=
  have bare {op i} := bare_answersEncoding (f := f) (op := op) (i := i) hrsv
  have withArg {op i} := withArg_answersEncoding (f := f) (op := op) (stg := 0#2) (i := i) hrsv
  have withSet {op i} := withSet_answersEncoding (f := f) (op := op) (i := i) hrsv
  .ite (bare rfl) <| .ite (withArg fun _ => rfl) <| .ite (withArg fun _ => rfl) <| .ite (withArg fun _ => rfl) <|
  .ite (withArg fun _ => rfl) <| .ite (bare rfl) <| .ite (decodeStest_answersEncoding hrsv) <|
  .ite (withSet fun _ => rfl) <| .ite (withSet fun _ => rfl) <| .ite (withSet fun _ => rfl) <|
  .ite (withArg fun _ => rfl) <| .ite (withSet fun _ => rfl) <|
  .ite (bare rfl) <| .ite (bare rfl) <| .ite (bare rfl) <| .ite (bare rfl) .none

/-- R112: a legal word is the word of the command it decodes to. -/
theorem encode_of_decode {w : Word} {i : Instr} (h : decode w = some i) : encode i = w := by
  have hf : encodeFields i = fieldsOf w :=
    AnswersEncoding.ite (fun hrsv => decodeFields_answersEncoding hrsv) .none i h
  rw [encode, hf, wordOf_fieldsOf]

/-- R111: a SET bit is read back as the row set it stands for. -/
theorem withSet_rowSetBit (op : Byte) (x : RowSet) (i : RowSet → Instr) :
    withSet ⟨op, 0#3, rowSetBit x, 0#2, 0#18⟩ i = some (i x) := by
  simp [withSet]

theorem decodeFields_encodeFields (i : Instr) : decodeFields (encodeFields i) = some i := by
  cases i with
  | red1 x | red2 x | red3 x | zchk x => exact withSet_rowSetBit _ x _
  | _ => rfl

/-- R114: the word of a command decodes to the command. -/
theorem decode_encode (i : Instr) : decode (encode i) = some i := by
  have hrsv : (encodeFields i).rsv = 0#18 := by cases i <;> rfl
  rw [decode, encode, fieldsOf_wordOf, if_pos hrsv, decodeFields_encodeFields]

theorem decode_eq_some_iff {w : Word} {i : Instr} : decode w = some i ↔ encode i = w :=
  ⟨encode_of_decode, fun h => h ▸ decode_encode i⟩

/-! ### What a row's mask leaves free -/

/-- R114: the mask of a row whose operand is ARG leaves ARG free; the row's match is its word with ARG = 0. -/
theorem exists_encode_of_argRow {w : Word} {i : BitVec 3 → Instr} {a : BitVec 3} {op : Byte} {stg : BitVec 2}
    (h : w &&& (opcodeRow (i a)).2 = (opcodeRow (i a)).1)
    (hfields : ∀ arg, encodeFields (i arg) = ⟨op, arg, 0#1, stg, 0#18⟩)
    (hrow : ∀ arg, opcodeRow (i arg) = (encode (i 0#3), 0xFFFFF8FF#32)) :
    ∃ k, encode k = w ∧ opcodeRow k = opcodeRow (i a) := by
  have hmask : fieldsOf 0xFFFFF8FF#32 =
      ⟨BitVec.allOnes 8, 0#3, BitVec.allOnes 1, BitVec.allOnes 2, BitVec.allOnes 18⟩ := by decide
  have hf := congrArg fieldsOf h
  simp only [hrow, encode, hfields, fieldsOf_and, hmask, fieldsOf_wordOf, BitVec.and_allOnes, Fields.mk.injEq] at hf
  obtain ⟨hop, -, hset, hstg, hrsv⟩ := hf
  refine ⟨i (fieldsOf w).arg, ?_, by rw [hrow, hrow]⟩
  rw [encode, hfields, ← hop, ← hset, ← hstg, ← hrsv, wordOf_fieldsOf]

/-- R114: the mask of a row whose operand is SET leaves SET free; the row's match is its word with SET = 0. -/
theorem exists_encode_of_setRow {w : Word} {i : RowSet → Instr} {x : RowSet} {op : Byte}
    (h : w &&& (opcodeRow (i x)).2 = (opcodeRow (i x)).1)
    (hfields : ∀ set, encodeFields (i set) = ⟨op, 0#3, rowSetBit set, 0#2, 0#18⟩)
    (hrow : ∀ set, opcodeRow (i set) = (encode (i .a), 0xFFFFF7FF#32)) :
    ∃ k, encode k = w ∧ opcodeRow k = opcodeRow (i x) := by
  have hmask : fieldsOf 0xFFFFF7FF#32 =
      ⟨BitVec.allOnes 8, BitVec.allOnes 3, 0#1, BitVec.allOnes 2, BitVec.allOnes 18⟩ := by decide
  have hf := congrArg fieldsOf h
  simp only [hrow, encode, hfields, fieldsOf_and, hmask, fieldsOf_wordOf, BitVec.and_allOnes, Fields.mk.injEq] at hf
  obtain ⟨hop, harg, -, hstg, hrsv⟩ := hf
  refine ⟨i (rowSetOf (fieldsOf w).set), ?_, by rw [hrow, hrow]⟩
  rw [encode, hfields, rowSetBit_rowSetOf, ← hop, ← harg, ← hstg, ← hrsv, wordOf_fieldsOf]

/-- R114: the mask of a row without operand leaves nothing free; the row's match is its word. -/
theorem exists_encode_of_bareRow {w : Word} {j : Instr} (h : w &&& (opcodeRow j).2 = (opcodeRow j).1)
    (hrow : opcodeRow j = (encode j, BitVec.allOnes 32)) : ∃ k, encode k = w ∧ opcodeRow k = opcodeRow j := by
  rw [hrow, BitVec.and_allOnes] at h
  exact ⟨j, h.symm, rfl⟩

/-! ### The rows -/

/-- R114: a word the row selects is the word of a command of the row. -/
theorem exists_encode_of_selected {w : Word} {j : Instr} (h : w &&& (opcodeRow j).2 = (opcodeRow j).1) :
    ∃ k, encode k = w ∧ opcodeRow k = opcodeRow j := by
  cases j with
  | nop | place | search | resume | verify | abort => exact exists_encode_of_bareRow h rfl
  | vclr | vflip | vtest | extract | stest24 | stest16 | stest8 | tsum =>
    exact exists_encode_of_argRow h (fun _ => rfl) (fun _ => rfl)
  | red1 | red2 | red3 | zchk => exact exists_encode_of_setRow h (fun _ => rfl) (fun _ => rfl)

/-- R114: the row of a command selects the command's word. -/
theorem opcodeRow_selects_encode (i : Instr) : Laws.OpcodeRow.Statement i :=
  match i with
  | .nop => Laws.OpcodeRow.nop
  | .vclr arg => Laws.OpcodeRow.vclr arg
  | .vflip arg => Laws.OpcodeRow.vflip arg
  | .vtest arg => Laws.OpcodeRow.vtest arg
  | .extract arg => Laws.OpcodeRow.extract arg
  | .place => Laws.OpcodeRow.place
  | .stest24 arg => Laws.OpcodeRow.stest24 arg
  | .stest16 arg => Laws.OpcodeRow.stest16 arg
  | .stest8 arg => Laws.OpcodeRow.stest8 arg
  | .red1 set => Laws.OpcodeRow.red1 set
  | .red2 set => Laws.OpcodeRow.red2 set
  | .red3 set => Laws.OpcodeRow.red3 set
  | .tsum arg => Laws.OpcodeRow.tsum arg
  | .zchk set => Laws.OpcodeRow.zchk set
  | .search => Laws.OpcodeRow.search
  | .resume => Laws.OpcodeRow.resume
  | .verify => Laws.OpcodeRow.verify
  | .abort => Laws.OpcodeRow.abort

/-- Settles O3: a selected word is the word of a command of the row, and the row of a command selects its word. -/
theorem tableRowSelectsItsWords : Obligations.TableRowSelectsItsWords := fun w j => by
  simp only [decode_eq_some_iff]
  constructor
  · exact exists_encode_of_selected
  · rintro ⟨i, rfl, hrow⟩
    rw [← hrow]
    exact opcodeRow_selects_encode i

end Sys2Proof
end

section
/-! The position table, `extract` and `place` (40_tables_extract_place.md R143 to R145). The four positions of an id lie in four
different grid rows, so they differ, and `place` and `extract` act on the four bytes separately. -/

namespace Sys2Proof.Machine

/-- R143: the closed form of the position table and its rows. -/
theorem pos_eq_positions {id : BitVec 3} (h : Claims.legalId id) (j : Fin 4) : pos id j = Claims.positions id j := by
  revert id j
  decide

/-- R143: byte `j` of the anti-diagonal lies in grid row `j`. -/
theorem pos_mod_four (id : BitVec 3) (j : Fin 4) : (pos id j).val % 4 = j.val := by
  simp only [pos]
  omega

theorem pos_injective (id : BitVec 3) : Function.Injective (pos id) := fun i j h => by
  rw [Fin.ext_iff, ← pos_mod_four id i, ← pos_mod_four id j, h]

/-- R39: the bytes of a quadruple by extraction and by shift. -/
theorem quadByte_eq_keyByte (q : Word) (j : Fin 4) : quadByte q j = Claims.keyByte q j := by
  ext k hk
  simp [quadByte, Claims.keyByte]

/-- R17: a quadruple is its four bytes, most significant first. -/
theorem quadByte_append (q : Word) : quadByte q 0 ++ quadByte q 1 ++ quadByte q 2 ++ quadByte q 3 = q := by
  ext k hk
  simp [quadByte]
  grind

/-- R144: byte `j` of what `extract` answers is the block's byte at position `j`. -/
theorem quadByte_extractIndex (blk : Block) (id : BitVec 3) (j : Fin 4) :
    quadByte (extractIndex blk id) j = blk[pos id j] := by
  ext k hk
  match j with
  | 0 | 1 | 2 | 3 =>
    simp [quadByte, extractIndex]
    grind

/-- R145: `place` writes byte `j` of the quadruple at position `j`. -/
theorem placeQuad_getElem_pos (q : Word) (id : BitVec 3) (blk : Block) (j : Fin 4) :
    (placeQuad q id blk)[pos id j] = quadByte q j := by
  have hne {i : Fin 4} (h : i ≠ j) : (pos id i).val ≠ (pos id j).val := fun he => h (pos_injective id (Fin.ext he))
  match j with
  | 0 | 1 | 2 | 3 => simp [placeQuad, hne]

/-- R145: `place` leaves the other 12 bytes. -/
theorem placeQuad_getElem_of_ne (q : Word) {id : BitVec 3} (blk : Block) {n : Fin 16} (h : ∀ j, n ≠ pos id j) :
    (placeQuad q id blk)[n] = blk[n] := by
  have hne (j : Fin 4) : (pos id j).val ≠ n.val := fun he => h j (Fin.ext he.symm)
  simp [placeQuad, hne]

/-- R145, the first law, of every id. -/
theorem extractIndex_placeQuad (q : Word) (id : BitVec 3) (blk : Block) : extractIndex (placeQuad q id blk) id = q := by
  simp only [extractIndex, placeQuad_getElem_pos, quadByte_append]

/-- R145, the second law, of every id: a byte at a position is written back, and any other is left. -/
theorem placeQuad_extractIndex (id : BitVec 3) (blk : Block) : placeQuad (extractIndex blk id) id blk = blk := by
  have hbyte (n : Fin 16) : (placeQuad (extractIndex blk id) id blk)[n] = blk[n] := by
    by_cases h : ∃ j, n = pos id j
    · obtain ⟨j, rfl⟩ := h
      rw [placeQuad_getElem_pos, quadByte_extractIndex]
    · exact placeQuad_getElem_of_ne _ blk (not_exists.1 h)
  exact Vector.ext fun n hn => hbyte ⟨n, hn⟩

/-- Settles O20: the positions are those of the table, and both laws hold of every id. -/
theorem extractAndPlaceAreInverse : Obligations.ExtractAndPlaceAreInverse := fun id q blk hid => by
  simp only [← pos_eq_positions hid, ← quadByte_eq_keyByte]
  exact ⟨placeQuad_getElem_pos q id blk, fun _ => placeQuad_getElem_of_ne q blk, extractIndex_placeQuad q id blk,
    placeQuad_extractIndex id blk⟩

end Sys2Proof.Machine
end

section
/-! The reduction stages together (42_reduce.md R194, R195). Accumulation only ever cancels set bits in pairs, so it keeps the
parity of every count of set bits, and two accumulations in turn are one along the composed index map. -/

namespace Sys2Proof.Machine

/-! ### Accumulation cancels in pairs -/

theorem setBit_perm_cons {i : Nat} {m : Memory} (h : i ∉ m) : (setBit i m).Perm (i :: m) := by
  induction m with
  | nil => exact .refl _
  | cons j m ih =>
    obtain ⟨hij, him⟩ := List.ne_and_not_mem_of_not_mem_cons h
    rw [setBit, if_neg hij]
    split
    next => exact .refl _
    next => exact ((ih him).cons j).trans (.swap i j m)

theorem perm_cons_clearBit {i : Nat} {m : Memory} (hm : m.Nodup) (h : i ∈ m) : m.Perm (i :: clearBit i m) := by
  rw [clearBit, ← hm.erase_eq_filter]
  exact List.perm_cons_erase h

/-- R18: a flip puts one index in or takes one out, so it counts one more or cancels a pair. -/
theorem countP_memFlip {m : Memory} (hm : m.Nodup) (i : Nat) (p : Nat → Bool) :
    ∃ k, (memFlip m i).countP p + 2 * k = m.countP p + if p i then 1 else 0 := by
  by_cases h : i ∈ m
  · have hflip : memFlip m i = clearBit i m := by simp [memFlip, memWrite, (memRead_iff_mem m i).2 h]
    refine ⟨if p i then 1 else 0, ?_⟩
    rw [hflip, (perm_cons_clearBit hm h).countP_eq, List.countP_cons]
    omega
  · have hflip : memFlip m i = setBit i m := by
      simp [memFlip, memWrite, Bool.eq_false_iff.2 (mt (memRead_iff_mem m i).1 h)]
    refine ⟨0, ?_⟩
    rw [hflip, (setBit_perm_cons h).countP_eq, List.countP_cons]
    omega

theorem Memory.wf.nodup {w : Nat} {m : Memory} (h : Memory.wf w m) : m.Nodup := h.1.imp Nat.ne_of_lt

theorem countP_foldl_flip {w : Nat} {f : Nat → Nat} (hf : ∀ i, f i < 2 ^ w) (p : Nat → Bool) (m : Memory) {out : Memory}
    (h : Memory.wf w out) :
    ∃ k, (m.foldl (fun out i => memFlip out (f i)) out).countP p + 2 * k = out.countP p + m.countP (p ∘ f) := by
  induction m generalizing out with
  | nil => exact ⟨0, rfl⟩
  | cons i m ih =>
    obtain ⟨k, hk⟩ := countP_memFlip h.nodup (f i) p
    obtain ⟨l, hl⟩ := ih (memFlip_wf h (hf i))
    refine ⟨k + l, ?_⟩
    rw [List.foldl_cons, List.countP_cons, Function.comp_apply]
    omega

/-- R180: of the set bits sent to `p`, accumulation keeps all but `k` cancelled pairs. -/
theorem countP_accumulate {w : Nat} {f : Nat → Nat} (hf : ∀ i, f i < 2 ^ w) (p : Nat → Bool) (m : Memory) :
    ∃ k, (accumulate f m).countP p + 2 * k = m.countP (p ∘ f) := by
  obtain ⟨k, hk⟩ := countP_foldl_flip hf p m (memZero_wf w)
  exact ⟨k, hk.trans (Nat.zero_add _)⟩

/-- R195, of any index map: with the predicate that holds of every index, the count is the number of set bits. -/
theorem length_accumulate {w : Nat} {f : Nat → Nat} (hf : ∀ i, f i < 2 ^ w) (m : Memory) :
    (accumulate f m).length % 2 = m.length % 2 ∧ (accumulate f m).length ≤ m.length := by
  obtain ⟨k, hk⟩ := countP_accumulate hf (fun _ => true) m
  simp only [Function.comp_def, List.countP_true] at hk
  omega

/-- Settles O34: each stage is an accumulation at indices inside its width. -/
theorem stagesKeepThePopulationParity : Obligations.StagesKeepThePopulationParity := fun v k1 k2 k3 k4 ta tb tc td => by
  obtain ⟨hparity1, hle1⟩ := length_accumulate (fold1_lt k1 k2 ta tb) v
  obtain ⟨hparity2, hle2⟩ := length_accumulate (fold2_lt k3 tc) v
  obtain ⟨hparity3, hle3⟩ := length_accumulate (fold3_lt k4 td) v
  exact ⟨hparity1, hle1, hparity2, hle2, hparity3, hle3⟩

/-! ### The three stages are one accumulation -/

/-- The pairs that cancel in the first accumulation do not change what is read after the second. -/
theorem accumulate_accumulate {w u : Nat} {f g : Nat → Nat} (hf : ∀ i, f i < 2 ^ w) (hg : ∀ i, g i < 2 ^ u) (m : Memory) :
    accumulate g (accumulate f m) = accumulate (g ∘ f) m := by
  refine eq_of_memRead (accumulate_wf hg _) (accumulate_wf (fun i => hg (f i)) m) fun j => ?_
  obtain ⟨k, hk⟩ := countP_accumulate hf (fun i => g i == j) m
  have hcomp : m.countP ((fun i => g i == j) ∘ f) = m.countP (fun i => (g ∘ f) i == j) := rfl
  rw [memRead_accumulate, memRead_accumulate, ← hcomp, ← hk, Nat.add_mul_mod_self_left]

theorem reduce3_reduce2_reduce1 (v : Memory) (k1 k2 k3 k4 : Byte) (ta tb tc td : Byte → Byte) :
    reduce3 (reduce2 (reduce1 v k1 k2 ta tb) k3 tc) k4 td =
      accumulate (fold3 k4 td ∘ fold2 k3 tc ∘ fold1 k1 k2 ta tb) v :=
  (congrArg (accumulate (fold3 k4 td)) (accumulate_accumulate (fold1_lt k1 k2 ta tb) (fold2_lt k3 tc) v)).trans
    (accumulate_accumulate (fun _ => fold2_lt k3 tc _) (fold3_lt k4 td) v)

/-! ### The index maps byte by byte: a stage folds bytes into the highest one and keeps the bytes below it -/

theorem fold1_toNat (k1 k2 : Byte) (ta tb : Byte → Byte) (q : Word) : fold1 k1 k2 ta tb q.toNat =
    ((ta (quadByte q 0 ^^^ k1) ^^^ tb (quadByte q 1 ^^^ k2)) ++ (quadByte q 2 ++ quadByte q 3)).toNat := by
  have ht : q.extractLsb' 0 16 = quadByte q 2 ++ quadByte q 3 := by
    ext k hk
    simp [quadByte]
    grind
  rw [fold1, BitVec.ofNat_toNat, BitVec.setWidth_eq, ht]
  rfl

theorem fold2_append (k3 : Byte) (tc : Byte → Byte) (x c d : Byte) :
    fold2 k3 tc (x ++ (c ++ d)).toNat = ((x ^^^ tc (c ^^^ k3)) ++ d).toNat := by
  have hx : BitVec.extractLsb' (n := 24) 16 8 (x ++ (c ++ d)) = x := BitVec.extractLsb'_append_eq_left
  have hc : BitVec.extractLsb' (n := 24) 8 8 (x ++ (c ++ d)) = c :=
    (BitVec.extractLsb'_append_eq_of_add_le (by decide)).trans BitVec.extractLsb'_append_eq_left
  have hd : BitVec.extractLsb' (n := 24) 0 8 (x ++ (c ++ d)) = d :=
    (BitVec.extractLsb'_append_eq_of_add_le (by decide)).trans BitVec.extractLsb'_append_eq_right
  simp only [fold2, BitVec.ofNat_toNat, BitVec.setWidth_eq, hx, hc, hd]

theorem fold3_append (k4 : Byte) (td : Byte → Byte) (y d : Byte) :
    fold3 k4 td (y ++ d).toNat = (y ^^^ td (d ^^^ k4)).toNat := by
  have hy : BitVec.extractLsb' (n := 16) 8 8 (y ++ d) = y := BitVec.extractLsb'_append_eq_left
  have hd : BitVec.extractLsb' (n := 16) 0 8 (y ++ d) = d := BitVec.extractLsb'_append_eq_right
  simp only [fold3, BitVec.ofNat_toNat, BitVec.setWidth_eq, hy, hd]

/-- R194: the index of a quadruple's bit goes to its `fold`. -/
theorem fold3_fold2_fold1 (k1 k2 k3 k4 : Byte) (ta tb tc td : Byte → Byte) (q : Word) :
    fold3 k4 td (fold2 k3 tc (fold1 k1 k2 ta tb q.toNat)) =
      (ta (quadByte q 0 ^^^ k1) ^^^ tb (quadByte q 1 ^^^ k2) ^^^ tc (quadByte q 2 ^^^ k3) ^^^
        td (quadByte q 3 ^^^ k4)).toNat := by
  rw [fold1_toNat, fold2_append, fold3_append]

/-! ### Counting set bits by words -/

/-- Log 6: in a canonical memory each set bit is one entry, so the entries with `p` are the indices set with `p`. -/
theorem countP_eq_ncard {w : Nat} {m : Memory} (h : Memory.wf w m) (p : Nat → Bool) :
    m.countP p = Set.ncard {i : BitVec w | p i.toNat = true ∧ memRead m i.toNat = true} := by
  have himage : BitVec.toNat '' {i : BitVec w | p i.toNat = true ∧ memRead m i.toNat = true} = (m.filter p).toFinset := by
    ext n
    simp only [Set.mem_image, Set.mem_ofPred_eq, memRead_iff_mem, List.coe_toFinset, List.mem_filter]
    constructor
    · rintro ⟨i, ⟨hp, hi⟩, rfl⟩
      exact ⟨hi, hp⟩
    · rintro ⟨hn, hp⟩
      have hlt : (BitVec.ofNat w n).toNat = n := by simpa using Nat.mod_eq_of_lt (h.2 n hn)
      exact ⟨BitVec.ofNat w n, by rw [hlt]; exact ⟨hp, hn⟩, hlt⟩
  rw [← Set.ncard_image_of_injective _ fun _ _ => BitVec.eq_of_toNat_eq, himage, Set.ncard_coe_finset,
    List.toFinset_card_of_nodup (h.nodup.filter p), List.countP_eq_length_filter]

/-- R182: accumulation from a canonical memory, as the parity of a number of indices. -/
theorem memRead_accumulate_iff_oddly {w : Nat} {m : Memory} (h : Memory.wf w m) (f : Nat → Nat) (j : Nat) :
    memRead (accumulate f m) j = true ↔ Claims.oddly fun i : BitVec w => f i.toNat = j ∧ memRead m i.toNat = true := by
  rw [memRead_accumulate, countP_eq_ncard h, decide_eq_true_iff, ← Nat.odd_iff, Claims.oddly]
  simp only [beq_iff_eq]

/-- Settles O32: the stages are one accumulation, along the map that takes a quadruple to its `fold`. -/
theorem threeStagesAreExact : Obligations.ThreeStagesAreExact := fun v k1 k2 k3 k4 ta tb tc td z hv => by
  simp only [reduce3_reduce2_reduce1, memRead_accumulate_iff_oddly hv, Function.comp_apply, fold3_fold2_fold1,
    quadByte_eq_keyByte, BitVec.toNat_inj]

end Sys2Proof.Machine
end

section
/-! The total sum (43_final_check.md R201, R206). A bit of an XOR is the parity of a count, and accumulation keeps that parity:
the set bits that cancel on the way to the reduced vector add the same byte twice. -/

namespace Sys2Proof.Machine

/-! ### The total sum as an XOR of bytes -/

/-- R201: the order of the set bits does not matter. -/
theorem totalSum_eq_foldr (imix : Byte → Byte) (v : Memory) (k5 : Byte) :
    totalSum imix v k5 = (v.map fun z => imix (BitVec.ofNat 8 z ^^^ k5)).foldr (· ^^^ ·) 0#8 := by
  rw [← List.foldl_eq_foldr, List.foldl_map, totalSum]

/-- A bit of the XOR of the bytes `g n` is the parity of how many of them have that bit. -/
theorem getLsbD_foldr_xor (g : Nat → Byte) (m : Memory) (b : Nat) :
    ((m.map g).foldr (· ^^^ ·) 0#8).getLsbD b = decide (m.countP (fun n => (g n).getLsbD b) % 2 = 1) := by
  induction m with
  | nil => simp
  | cons n m ih =>
    rw [List.map_cons, List.foldr_cons, BitVec.getLsbD_xor, ih, List.countP_cons]
    cases (g n).getLsbD b
    · simp
    · rcases Nat.mod_two_eq_zero_or_one (m.countP fun n => (g n).getLsbD b) with h | h <;> simp [Nat.add_mod, h]

/-! ### The closed form -/

/-- R201: a bit of the total sum of a canonical memory, as the parity of a number of set bits. -/
theorem getLsbD_totalSum_iff_oddly {v : Memory} (h : Memory.wf 8 v) (imix : Byte → Byte) (k5 : Byte) (b : Nat) :
    (totalSum imix v k5).getLsbD b = true ↔
      Claims.oddly fun z : Byte => memRead v z.toNat = true ∧ (imix (z ^^^ k5)).getLsbD b = true := by
  rw [totalSum_eq_foldr, getLsbD_foldr_xor, countP_eq_ncard h, decide_eq_true_iff, ← Nat.odd_iff, Claims.oddly]
  simp only [BitVec.ofNat_toNat, BitVec.setWidth_eq, and_comm]

/-- Settles O35: the all-zero vector has no set bit, and of any other each bit of the sum is the parity of a count. -/
theorem totalSumClosedForm : Obligations.TotalSumClosedForm := fun imix _ k5 hv =>
  ⟨rfl, fun b _ => getLsbD_totalSum_iff_oddly hv imix k5 b⟩

/-! ### The sum after a reduction is the direct sum -/

/-- The XOR over an accumulated memory is the XOR along the index map: a cancelled pair adds one byte twice. -/
theorem foldr_xor_accumulate {w : Nat} {f : Nat → Nat} (hf : ∀ i, f i < 2 ^ w) (g : Nat → Byte) (m : Memory) :
    ((accumulate f m).map g).foldr (· ^^^ ·) 0#8 = (m.map (g ∘ f)).foldr (· ^^^ ·) 0#8 := by
  refine BitVec.eq_of_getLsbD_eq fun b _ => ?_
  obtain ⟨k, hk⟩ := countP_accumulate hf (fun n => (g n).getLsbD b) m
  have hcomp : m.countP ((fun n => (g n).getLsbD b) ∘ f) = m.countP fun n => ((g ∘ f) n).getLsbD b := rfl
  rw [getLsbD_foldr_xor, getLsbD_foldr_xor, ← hcomp, ← hk, Nat.add_mul_mod_self_left]

/-- Settles O33: the stages are one accumulation, which takes the index of each quadruple to its `fold`. -/
theorem totalSumEqualsTheDirectSum : Obligations.TotalSumEqualsTheDirectSum :=
  fun v k1 k2 k3 k4 k5 ta tb tc td imix ⟨_, hlt⟩ => by
    rw [reduce3_reduce2_reduce1, totalSum_eq_foldr, foldr_xor_accumulate (f := fold3 k4 td ∘ _) fun _ => fold3_lt k4 td _]
    congr 1
    refine List.map_congr_left fun n hn => ?_
    obtain ⟨q, rfl⟩ : ∃ q : Word, q.toNat = n :=
      ⟨BitVec.ofNat 32 n, (BitVec.toNat_ofNat n 32).trans (Nat.mod_eq_of_lt (hlt n hn))⟩
    simp only [Function.comp_apply, fold3_fold2_fold1, quadByte_eq_keyByte, BitVec.ofNat_toNat, BitVec.setWidth_eq]

end Sys2Proof.Machine
end

section
/-! The checks on a host write to CMD (60_exceptions.md R271, R280). Each acceptance check of the model is the rule's condition
for its error, so the first check that fails is the rule's first error; a submission while idle is decided by it alone. -/

namespace Sys2Proof.Machine

/-! ### Each check is its rule's condition -/

/-- R271, Slot: ARG is 6 or 7. -/
theorem slotInRange_eq_false_iff {arg : BitVec 3} : slotInRange arg = false ↔ arg = 6#3 ∨ arg = 7#3 := by
  revert arg; decide

/-- R142, CfgId: the id is not 1, 2, 3 or 4. -/
theorem idInRange_eq_false_iff {id : BitVec 3} : idInRange id = false ↔ id ∉ [1#3, 2#3, 3#3, 4#3] := by
  revert id; decide

/-- R271, Uninit of VFLIP and VTEST: an ARG that names no slot counts as not initialised. -/
theorem argInit_eq_false_iff {arg : BitVec 3} {s : State} : argInit arg s = false ↔ s.vinit[arg.toNat]? ≠ some true := by
  unfold argInit slotOf
  by_cases h : arg.toNat < 6 <;> simp [h]

/-- R271: the valid bit the check reads is that of the set of the slot ARG names. -/
theorem argValid_of_slotInRange {arg : BitVec 3} (h : slotInRange arg = true) (w : Scratch) (s : State) :
    argValid w arg s = validAt w (validOf (Claims.setOfArg arg) s) := by
  obtain ⟨k, hk⟩ := (slotInRange_iff arg).1 h
  simp only [argValid, hk, setOfSlot, Claims.setOfArg, slotOf_eq_some.1 hk]

/-- R271, Uninit of RED1: a row of the set was not cleared since reset. -/
theorem setInit_eq_false_iff {x : RowSet} {s : State} :
    setInit x s = false ↔ ∃ r : Fin 3, s.vinit[slotAt x r] = false := by
  simp only [setInit, Bool.and_eq_false_iff, Fin.exists_fin_succ, Fin.exists_fin_zero, or_false, or_assoc]
  rfl

/-- R271, Uninit of VERIFY: one of the slots 3, 4, 5. -/
theorem setInit_b_eq_false_iff {s : State} :
    setInit .b s = false ↔ s.vinit[3] = false ∨ s.vinit[4] = false ∨ s.vinit[5] = false := by
  simp only [setInit, Bool.and_eq_false_iff, or_assoc]
  rfl

/-- R271, Uninit of SEARCH and RESUME: one of the six slots. -/
theorem setInit_a_and_b_eq_false_iff {s : State} :
    (setInit .a s && setInit .b s) = false ↔ ∃ k : Slot, s.vinit[k] = false := by
  rw [Bool.and_eq_false_iff, setInit_eq_false_iff, setInit_eq_false_iff]
  constructor
  · rintro (⟨r, h⟩ | ⟨r, h⟩) <;> exact ⟨_, h⟩
  · rintro ⟨k, h⟩
    obtain ⟨r, hr⟩ := slotAt_surj k
    rw [hr] at h
    cases hk : setOfSlot k <;> rw [hk] at h
    · exact .inl ⟨r, h⟩
    · exact .inr ⟨r, h⟩

open Classical in
/-- R271, R280: the checks 3 to 6 of every command are the four conditions of the rules, in their order. -/
theorem acceptanceFailing_eq (i : Instr) (s : State) : acceptanceFailing i s =
    if Claims.slotError i then some .slot
    else if Claims.idError i s then some .cfgId
    else if Claims.uninitError i s then some .uninit
    else if Claims.rangeError i s then some .range
    else none := by
  unfold acceptanceFailing Claims.slotError Claims.slotArg Claims.idError Claims.uninitError Claims.rangeError
  cases i with
  | nop | abort => simp
  | vclr arg => simp [vclrFailing, firstFailing, slotInRange_eq_false_iff]
  | vflip arg | vtest arg =>
    simp [vflipFailing, vtestFailing, firstFailing, slotInRange_eq_false_iff, argInit_eq_false_iff]
  | extract id => simp [extractFailing, firstFailing, idInRange_eq_false_iff]
  | place => simp [placeFailing, firstFailing, configIdBad, idInRange_eq_false_iff]
  | red1 x => simp [red1Failing, firstFailing, setInit_eq_false_iff]
  | red2 x | red3 x | zchk x => simp [red2Failing, red3Failing, zchkFailing, firstFailing]
  | search | resume =>
    simp only [searchFailing, resumeFailing, firstFailing, configIdBad, Bool.not_eq_true', idInRange_eq_false_iff,
      setInit_a_and_b_eq_false_iff]
    simp
  | verify => simp [verifyFailing, firstFailing, setInit_b_eq_false_iff]
  | stest24 arg | stest16 arg | stest8 arg | tsum arg =>
    cases h : slotInRange arg with
    | false => simp [stestFailing, tsumFailing, firstFailing, h, slotInRange_eq_false_iff.1 h]
    | true =>
      have hs : ¬(arg = 6#3 ∨ arg = 7#3) := slotInRange_eq_false_iff.not.1 (by simp [h])
      simp only [stestFailing, tsumFailing, firstFailing, argValid_of_slotInRange h, decide_eq_true_eq]
      -- `congr`: the two sides decide the Range condition by different procedures.
      simp [h, hs, validAt, scratchWidth] <;> congr

/-- R280: the first failing check is the one the rules name. -/
theorem acceptanceFailing_of_firstError {i : Instr} {s : State} {e : CmdError} (h : Claims.firstError i s e) :
    acceptanceFailing i s = some e := by
  rw [acceptanceFailing_eq]
  cases e with
  | slot => exact if_pos h
  | cfgId =>
    obtain ⟨hslot, hid⟩ := h
    rw [if_neg hslot, if_pos hid]
  | uninit =>
    obtain ⟨hslot, hid, hinit⟩ := h
    rw [if_neg hslot, if_neg hid, if_pos hinit]
  | range =>
    obtain ⟨hslot, hid, hinit, hrange⟩ := h
    rw [if_neg hslot, if_neg hid, if_neg hinit, if_pos hrange]
  | badCmd | busy | busyWr => exact h.elim

/-- R280: when none of the rules' conditions is met no check fails. -/
theorem acceptanceFailing_of_admissible {i : Instr} {s : State} (h : Claims.admissible i s) :
    acceptanceFailing i s = none := by
  obtain ⟨hslot, hid, hinit, hrange⟩ := h
  rw [acceptanceFailing_eq, if_neg hslot, if_neg hid, if_neg hinit, if_neg hrange]

/-! ### What a write to CMD does -/

/-- R34: a legal word is its command. -/
theorem commandWrite_of_decode {w : Word} {i : Instr} (hd : decode w = some i) (s : State) :
    commandWrite w s = exec i s := by simp only [commandWrite, hd]

/-- R280: what is no command is Busy or BadCmd. -/
theorem commandWrite_of_illegal {w : Word} (hd : decode w = none) (s : State) :
    commandWrite w s = .next (raise (if busy s then .busy else .badCmd) w s) := by simp only [commandWrite, hd]

/-- R280, R241: while idle every command, ABORT among them, is its submission. -/
theorem exec_host_idle (i : Instr) {s : State} (ha : actor s = .host) (hs : s.phase = .idle) :
    exec i s = .next (submit (encode i) (acceptanceFailing i s) (entering i) s) := by
  by_cases hi : i = .abort
  · subst hi
    rw [exec_abort_host ha, (busy_eq_false_iff s).2 hs]
    exact congrArg _ (submit_accepted hs _ _).symm
  · exact exec_host hi ha

/-- R241: the model's case split and the rule's are one. -/
theorem requestAbort_eq_abortWhileBusy (s : State) : requestAbort s = Claims.abortWhileBusy s := by
  unfold requestAbort Claims.abortWhileBusy
  cases s.vonly <;> by_cases hp : s.phase = .exec <;> simp [hp]

/-- R280, step 1: ABORT while BUSY = 1 is a request. -/
theorem commandWrite_abort_busy {s : State} (ha : actor s = .host) (hs : s.phase ≠ .idle) :
    commandWrite 0x0000002F#32 s = .next (Claims.abortWhileBusy s) := by
  rw [commandWrite_of_decode (i := .abort) (by decide), exec_abort_host ha, (busy_eq_true_iff s).2 hs, if_pos rfl,
    requestAbort_eq_abortWhileBusy]

/-- R280, step 1: every other Word, legal or not, is Busy while BUSY = 1. -/
theorem commandWrite_busy {s : State} {w : Word} (ha : actor s = .host) (hs : s.phase ≠ .idle) (hw : w ≠ 0x0000002F#32) :
    commandWrite w s = .next (raise .busy w s) := by
  cases hd : decode w with
  | none => rw [commandWrite_of_illegal hd, (busy_eq_true_iff s).2 hs, if_pos rfl]
  | some i =>
    have henc : encode i = w := encode_of_decode hd
    have hi : i ≠ .abort := by
      rintro rfl
      exact hw henc.symm
    rw [commandWrite_of_decode hd, exec_host hi ha, submit_busy hs, henc]

/-- R280, step 2: an illegal Word is BadCmd while idle. -/
theorem commandWrite_illegal_idle {s : State} {w : Word} (hs : s.phase = .idle) (hd : decode w = none) :
    commandWrite w s = .next (raise .badCmd w s) := by
  rw [commandWrite_of_illegal hd, (busy_eq_false_iff s).2 hs]
  rfl

/-- R280, steps 3 to 6: the first check that fails is the error recorded. -/
theorem commandWrite_rejected {s : State} {w : Word} {i : Instr} {e : CmdError} (ha : actor s = .host)
    (hs : s.phase = .idle) (hd : decode w = some i) (he : Claims.firstError i s e) :
    commandWrite w s = .next (raise e w s) := by
  rw [commandWrite_of_decode hd, exec_host_idle i ha hs, acceptanceFailing_of_firstError he, submit_failing hs,
    encode_of_decode hd]

/-- R221, RESUME: K1 and K2 stay, K3 and K4 are zeroed. -/
theorem k1_append_k2_append_zero (s : State) : s.k1 ++ s.k2 ++ 0#16 = s.kg &&& 0xFFFF0000#32 := by
  have hmask : 0xFFFF0000#32 = BitVec.allOnes 8 ++ BitVec.allOnes 8 ++ (0#8 ++ 0#8) := by decide
  have hkg : s.kg = s.k1 ++ s.k2 ++ (s.k3 ++ s.k4) :=
    (quadByte_append s.kg).symm.trans (BitVec.append_assoc (x₁ := s.k1 ++ s.k2))
  conv_rhs => rw [hmask, hkg, BitVec.and_append, BitVec.and_append, BitVec.and_append]
  simp only [BitVec.and_allOnes, BitVec.and_zero]
  rfl

/-- R221: the acceptance of every command is the rule's. -/
theorem entering_accept (i : Instr) (w : Word) (s : State) : entering i (accept w s) = Claims.accepted i w s := by
  cases i with
  | resume =>
    simp only [entering, enterResume, Claims.accepted, ← k1_append_k2_append_zero]
    rfl
  | _ => rfl

/-- R280, step 7: a command whose checks pass is accepted. -/
theorem commandWrite_accepted {s : State} {w : Word} {i : Instr} (ha : actor s = .host) (hs : s.phase = .idle)
    (hd : decode w = some i) (hi : Claims.admissible i s) : commandWrite w s = .next (Claims.accepted i w s) := by
  rw [commandWrite_of_decode hd, exec_host_idle i ha hs, acceptanceFailing_of_admissible hi, submit_accepted hs,
    encode_of_decode hd, entering_accept]

/-! ### The step -/

/-- R34: the step of a host write to CMD, whose handling leaves the turns to the step. -/
theorem step_write_cmd {s t : State} {w : Word} {rest : List Turn} (h : s.turns = .write 0#5 w :: rest)
    (hc : commandWrite w s = .next t) (ht : t.turns = s.turns) : step s = .next { t with turns := rest } := by
  have hturn : hostWriteTurn 0#5 w s = commandWrite w s := rfl
  rw [step, takeTurn_write h, hturn, hc, mapNext_next, endTurn_of_cons (ht.trans h)]

theorem accepted_turns (i : Instr) (w : Word) (s : State) : (Claims.accepted i w s).turns = s.turns := by
  cases i <;> rfl

/-- Settles O7: each check by its lemma. -/
theorem commandWriteFollowsTheCheckOrder : Obligations.CommandWriteFollowsTheCheckOrder := by
  intro s w rest h
  have ha : actor s = .host := actor_of_write h
  refine ⟨?_, ?_, ?_, fun i hs hd => ?_⟩
  · rintro hs rfl
    exact step_write_cmd h (commandWrite_abort_busy ha hs)
      (requestAbort_eq_abortWhileBusy s ▸ requestAbort_turns s)
  · exact fun hs hw => step_write_cmd h (commandWrite_busy ha hs hw) (raise_turns _ _ _)
  · exact fun hs hd => step_write_cmd h (commandWrite_illegal_idle hs hd) (raise_turns _ _ _)
  · have rejects {e : CmdError} (he : Claims.firstError i s e) : step s = .next { raise e w s with turns := rest } :=
      step_write_cmd h (commandWrite_rejected ha hs hd he) (raise_turns e w s)
    exact ⟨fun hslot => rejects hslot, fun hslot hid => rejects ⟨hslot, hid⟩,
      fun hslot hid hinit => rejects ⟨hslot, hid, hinit⟩,
      fun hslot hid hinit hrange => rejects ⟨hslot, hid, hinit, hrange⟩,
      fun hadm => step_write_cmd h (commandWrite_accepted ha hs hd hadm) (accepted_turns i w s)⟩

end Sys2Proof.Machine
end

section
/-! Writes to the other registers and the error record (10_state.md R48, 60_exceptions.md R281): what is refused while BUSY = 1,
and the turns of the host that record no error. -/

namespace Sys2Proof.Machine

/-- R48, R281: the registers that are not written while BUSY = 1. -/
def Reg.isProtected : Reg → Bool
  | .cfg | .kg | .k5r | .idx | .ct _ | .key _ => true
  | .cmd | .status | .ctrl | .result | .fpcnt | .errinfo | .reserved => false

/-- R32, R281: the rule's word addresses are those of the protected registers. -/
theorem regAt_isProtected_iff (a : BitVec 5) : (regAt a).isProtected = true ↔ Claims.protectedReg a := by
  revert a; decide

theorem Reg.ne_cmd_of_isProtected {r : Reg} (h : r.isProtected = true) : r ≠ .cmd := by
  rintro rfl
  cases h

/-- R281: while BUSY = 1 a write to a protected register is BusyWr and nothing else. -/
theorem hostWrite_protected_busy {a : BitVec 5} (ha : (regAt a).isProtected = true) {s : State} (hs : s.phase ≠ .idle)
    (d : Word) : hostWrite a d s = raise .busyWr (byteOffset a) s := by
  unfold hostWrite
  generalize regAt a = r at ha ⊢
  cases r with
  | cfg | kg | k5r | idx | ct _ | key _ => exact idleWrite_busy hs a _
  | cmd | status | ctrl | result | fpcnt | errinfo | reserved => cases ha

/-- R281, R48: the step of a refused register write. -/
theorem step_write_protected_busy {s : State} {a : BitVec 5} {d : Word} {rest : List Turn}
    (h : s.turns = .write a d :: rest) (hs : s.phase ≠ .idle) (ha : Claims.protectedReg a) :
    step s = .next { raise .busyWr (BitVec.ofNat 32 (4 * a.toNat)) s with turns := rest } := by
  have hp : (regAt a).isProtected = true := (regAt_isProtected_iff a).2 ha
  rw [step_write_register (Reg.ne_cmd_of_isProtected hp) h, hostWrite_protected_busy hp hs, byteOffset_eq,
    endTurn_of_cons ((raise_turns _ _ _).trans h)]

/-- R35, R274: a write to STATUS leaves the error code or, with bit 8 set, clears it. -/
theorem statusWrite_err (d : Word) (s : State) : (statusWrite d s).err = if d[8] then none else s.err := by
  unfold statusWrite
  cases d[1] <;> cases d[8] <;> rfl

/-- R31: the step of a host read. -/
theorem step_read {s : State} {a : BitVec 5} {rest : List Turn} (h : s.turns = .read a :: rest) :
    step s = .next (endTurn (hostReadTurn a s)) := by
  rw [step, takeTurn_read h, mapNext_next]

/-- Settles O10: a protected write is refused, a write to STATUS or CTRL records nothing, nor does a read. -/
theorem busyRegisterWriteRejected : Obligations.BusyRegisterWriteRejected := by
  intro s a d rest
  refine ⟨step_write_protected_busy, fun h ha => ?_, fun h => ⟨_, step_read h, rfl⟩⟩
  rcases ha with rfl | rfl
  · have herr : (endTurn (hostWrite 1#5 d s)).err = if d[8] then none else s.err := statusWrite_err d s
    refine ⟨_, step_write_register (by decide) h, ?_⟩
    rw [herr]
    cases d[8]
    · exact .inl rfl
    · exact .inr rfl
  · exact ⟨_, step_write_register (by decide) h, .inl rfl⟩

end Sys2Proof.Machine
end

section
/-! What one step can do, said once (00_scope.md R22): the moves of the two agents and of the reset input, each with its
conditions, and what each of the operations behind them leaves unchanged. -/

namespace Sys2Proof.Machine

/-! ### Frames: the fields an operation may change; every other field is the old one -/

theorem raise_frame (e : CmdError) (w : Word) (s : State) :
    ∃ err info, raise e w s = { s with err := err, errinfo := info } := by
  unfold raise
  split <;> exact ⟨_, _, rfl⟩

theorem statusWrite_frame (d : Word) (s : State) :
    ∃ done err info, statusWrite d s = { s with done := done, err := err, errinfo := info } := by
  unfold statusWrite
  dsimp only
  split <;> split <;> exact ⟨_, _, _, rfl⟩

/-- R48, R281: while BUSY = 1 a host write to a register other than CMD may change DONE, the error record and the interrupt
enables only. -/
theorem hostWrite_busy_frame (a : BitVec 5) (d : Word) {s : State} (h : s.phase ≠ .idle) :
    ∃ done err info ieDone ieErr, hostWrite a d s =
      { s with done := done, err := err, errinfo := info, ieDone := ieDone, ieErr := ieErr } := by
  unfold hostWrite
  cases regAt a with
  | status =>
    obtain ⟨_, _, _, hw⟩ := statusWrite_frame d s
    exact ⟨_, _, _, _, _, hw⟩
  | cfg | kg | k5r | idx | ct _ | key _ =>
    obtain ⟨_, _, hr⟩ := raise_frame .busyWr (byteOffset a) s
    exact ⟨_, _, _, _, _, (idleWrite_busy h a _).trans hr⟩
  | cmd | ctrl | result | fpcnt | errinfo | reserved => exact ⟨_, _, _, _, _, rfl⟩

/-- R37 to R48: what a host write to a register other than CMD may change. -/
theorem hostWrite_frame (a : BitVec 5) (d : Word) (s : State) :
    ∃ done err info ieDone ieErr configId tselA tselB kg k5 idx ct key, hostWrite a d s =
      { s with done := done, err := err, errinfo := info, ieDone := ieDone, ieErr := ieErr, configId := configId,
               tselA := tselA, tselB := tselB, kg := kg, k5 := k5, idx := idx, ct := ct, key := key } := by
  by_cases h : s.phase = .idle
  · unfold hostWrite
    cases regAt a with
    | status =>
      obtain ⟨_, _, _, hw⟩ := statusWrite_frame d s
      exact ⟨_, _, _, _, _, _, _, _, _, _, _, _, _, hw⟩
    | cfg | kg | k5r | idx | ct _ | key _ => exact ⟨_, _, _, _, _, _, _, _, _, _, _, _, _, idleWrite_idle h a _⟩
    | cmd | ctrl | result | fpcnt | errinfo | reserved => exact ⟨_, _, _, _, _, _, _, _, _, _, _, _, _, rfl⟩
  · obtain ⟨_, _, _, _, _, hw⟩ := hostWrite_busy_frame a d h
    exact ⟨_, _, _, _, _, _, _, _, _, _, _, _, _, hw⟩

/-- R221: what the acceptance of a command may change. -/
theorem accepted_frame (i : Instr) (w : Word) (s : State) :
    ∃ phase vonly kg k5 k5c k5v fpcnt found aborted, Claims.accepted i w s =
      { s with phase := phase, cmdLatch := w, done := false, vonly := vonly, kg := kg, k5 := k5, k5c := k5c,
               k5v := k5v, fpcnt := fpcnt, found := found, aborted := aborted } := by
  cases i <;> exact ⟨_, _, _, _, _, _, _, _, _, rfl⟩

/-- R57: the valid bits are two fields. -/
theorem setValid_frame (x : RowSet) (v : Valid) (s : State) :
    ∃ va vb, setValid x v s = { s with validA := va, validB := vb } := by
  cases x <;> exact ⟨_, _, rfl⟩

/-- What the pseudocode of a command with a slot operand does, given what it does on a slot. -/
theorem onSlot_induction {P : State → Prop} {arg : BitVec 3} {f : Slot → State → State} {s : State} (hs : P s)
    (hf : ∀ k, slotOf arg = some k → P (f k s)) : P (onSlot arg f s) := by
  unfold onSlot
  split
  next k hk => exact hf k hk
  next => exact hs

/-- `t` is `s` but for what the pseudocode of simple commands may change. -/
def EffectFrame (s t : State) : Prop :=
  ∃ idx result key vinit va vb v32 v24 v16 v8, t =
    { s with idx := idx, result := result, key := key, vinit := vinit, validA := va, validB := vb, v32 := v32,
             v24 := v24, v16 := v16, v8 := v8 }

theorem EffectFrame.refl (s : State) : EffectFrame s s := ⟨_, _, _, _, _, _, _, _, _, _, rfl⟩

theorem EffectFrame.setValid {s t : State} (h : EffectFrame s t) (x : RowSet) (v : Valid) :
    EffectFrame s (setValid x v t) := by
  obtain ⟨_, _, _, _, _, _, _, _, _, _, rfl⟩ := h
  obtain ⟨_, _, hv⟩ := setValid_frame x v _
  exact ⟨_, _, _, _, _, _, _, _, _, _, hv⟩

/-- R223: what the pseudocode of a simple command may change. -/
theorem effectOf_frame (i : Instr) (s : State) : EffectFrame s (effectOf i s) := by
  cases i with
  | vclr arg | vflip arg =>
    exact onSlot_induction (.refl s) fun k _ =>
      EffectFrame.setValid ⟨_, _, _, _, _, _, _, _, _, _, rfl⟩ (setOfSlot k) afterLoad
  | vtest arg | stest24 arg | stest16 arg | stest8 arg | tsum arg =>
    exact onSlot_induction (.refl s) fun k _ => ⟨_, _, _, _, _, _, _, _, _, _, rfl⟩
  | red1 x | red2 x | red3 x => exact EffectFrame.setValid ⟨_, _, _, _, _, _, _, _, _, _, rfl⟩ x _
  | nop | extract _ | place | zchk _ | search | resume | verify | abort => exact ⟨_, _, _, _, _, _, _, _, _, _, rfl⟩

/-- `t` is `s` but for what the step table may change. -/
def ControlFrame (s t : State) : Prop :=
  ∃ phase done found aborted abortReq kg k5 k5c k5v result key fpcnt va vb v24 v16 v8, t =
    { s with phase := phase, done := done, found := found, aborted := aborted, abortReq := abortReq, kg := kg, k5 := k5,
             k5c := k5c, k5v := k5v, result := result, key := key, fpcnt := fpcnt, validA := va, validB := vb,
             v24 := v24, v16 := v16, v8 := v8 }

/-! ### The step table, row by row -/

/-- R224: what the step table does in each phase of the controller, with the condition of each of its cases. -/
inductive ControlMove (s : State) : State → Prop where
  | abort (phase : s.phase = .pPair) (req : s.abortReq = true) :
      ControlMove s (finish { s with aborted := true, result := 0#32 })
  | pair (phase : s.phase = .pPair) (req : s.abortReq = false) : ControlMove s { stage1 .a s with phase := .pK3 }
  | k3 (phase : s.phase = .pK3) : ControlMove s { stage2 .a s with phase := .pK4 }
  | k4 (phase : s.phase = .pK4) : ControlMove s { stage3 .a s with k5 := 0#8, phase := .pK5 }
  | candidate (phase : s.phase = .pK5) (zero : zeroCondition .a s.k5 s = true) :
      ControlMove s { s with k5c := s.k5, phase := .vS1 }
  | nextK5 (phase : s.phase = .pK5) (zero : zeroCondition .a s.k5 s = false) (more : s.k5 < 0xFF#8) :
      ControlMove s { s with k5 := s.k5 + 1#8 }
  | noCandidate (phase : s.phase = .pK5) (zero : zeroCondition .a s.k5 s = false) (last : s.k5 = 0xFF#8) :
      ControlMove s { s with phase := .adv }
  | s1 (phase : s.phase = .vS1) : ControlMove s { stage1 .b s with phase := .vS2 }
  | s2 (phase : s.phase = .vS2) : ControlMove s { stage2 .b s with phase := .vS3 }
  | s3 (phase : s.phase = .vS3) : ControlMove s { stage3 .b s with k5v := 0#8, phase := .vK5 }
  | verified (phase : s.phase = .vK5) (zero : zeroCondition .b s.k5v s = true) (only : s.vonly = true) :
      ControlMove s (finish { s with result := 1#32 })
  | found (phase : s.phase = .vK5) (zero : zeroCondition .b s.k5v s = true) (only : s.vonly = false) :
      ControlMove s (finish (placeFound s))
  | nextK5v (phase : s.phase = .vK5) (zero : zeroCondition .b s.k5v s = false) (more : s.k5v < 0xFF#8) :
      ControlMove s { s with k5v := s.k5v + 1#8 }
  | unverified (phase : s.phase = .vK5) (zero : zeroCondition .b s.k5v s = false) (last : s.k5v = 0xFF#8)
      (only : s.vonly = true) : ControlMove s (finish { s with result := 0#32 })
  | discard (phase : s.phase = .vK5) (zero : zeroCondition .b s.k5v s = false) (last : s.k5v = 0xFF#8)
      (only : s.vonly = false) : ControlMove s { s with fpcnt := saturatingSucc s.fpcnt, phase := .adv }
  | exhausted (phase : s.phase = .adv) (last : s.kg = 0xFFFFFFFF#32) : ControlMove s (finish { s with result := 0#32 })
  | advance (phase : s.phase = .adv) (more : s.kg ≠ 0xFFFFFFFF#32) :
      ControlMove s { s with kg := s.kg + 1#32, phase := advPhase (s.kg + 1#32) }

/-- R224: the last guess of a byte. -/
theorem not_lt_0xFF_iff {b : Byte} : ¬b < 0xFF#8 ↔ b = 0xFF#8 := by
  revert b; decide

/-- R224: the step table has a case for every state of a phase of the controller. -/
theorem controllerStep_move {s : State} (hi : s.phase ≠ .idle) (he : s.phase ≠ .exec) :
    ControlMove s (controllerStep s) := by
  cases hp : s.phase with
  | idle => exact absurd hp hi
  | exec => exact absurd hp he
  | pPair =>
    rw [controllerStep_pPair hp, pPairStep]
    split
    next h => exact .abort hp h
    next h => exact .pair hp (Bool.eq_false_iff.2 h)
  | pK3 => exact controllerStep_pK3 hp ▸ .k3 hp
  | pK4 => exact controllerStep_pK4 hp ▸ .k4 hp
  | pK5 =>
    rw [controllerStep_pK5 hp, pK5Step]
    split
    next hz => exact .candidate hp hz
    next hz =>
      split
      next hl => exact .nextK5 hp (Bool.eq_false_iff.2 hz) hl
      next hl => exact .noCandidate hp (Bool.eq_false_iff.2 hz) (not_lt_0xFF_iff.1 hl)
  | vS1 => exact controllerStep_vS1 hp ▸ .s1 hp
  | vS2 => exact controllerStep_vS2 hp ▸ .s2 hp
  | vS3 => exact controllerStep_vS3 hp ▸ .s3 hp
  | vK5 =>
    rw [controllerStep_vK5 hp, vK5Step]
    split
    next hz =>
      split
      next ho => exact .verified hp hz ho
      next ho => exact .found hp hz (Bool.eq_false_iff.2 ho)
    next hz =>
      split
      next hl => exact .nextK5v hp (Bool.eq_false_iff.2 hz) hl
      next hl =>
        split
        next ho => exact .unverified hp (Bool.eq_false_iff.2 hz) (not_lt_0xFF_iff.1 hl) ho
        next ho => exact .discard hp (Bool.eq_false_iff.2 hz) (not_lt_0xFF_iff.1 hl) (Bool.eq_false_iff.2 ho)
  | adv =>
    rw [controllerStep_adv hp, advStep]
    split
    next hk => exact .exhausted hp hk
    next hk => exact .advance hp hk

/-- R224: the cases of the step table exclude each other, so what is known of the state fixes the step. -/
theorem controllerStep_of_move {s u : State} (h : ControlMove s u) : controllerStep s = u := by
  cases h with
  | abort hp req | pair hp req => simp [controllerStep_pPair hp, pPairStep, req]
  | k3 hp => exact controllerStep_pK3 hp
  | k4 hp => exact controllerStep_pK4 hp
  | candidate hp zero => simp [controllerStep_pK5 hp, pK5Step, zero]
  | nextK5 hp zero more => simp [controllerStep_pK5 hp, pK5Step, zero, more]
  | noCandidate hp zero last => simp [controllerStep_pK5 hp, pK5Step, zero, not_lt_0xFF_iff.2 last]
  | s1 hp => exact controllerStep_vS1 hp
  | s2 hp => exact controllerStep_vS2 hp
  | s3 hp => exact controllerStep_vS3 hp
  | verified hp zero only | found hp zero only => simp [controllerStep_vK5 hp, vK5Step, zero, only]
  | nextK5v hp zero more => simp [controllerStep_vK5 hp, vK5Step, zero, more]
  | unverified hp zero last only | discard hp zero last only =>
    simp [controllerStep_vK5 hp, vK5Step, zero, not_lt_0xFF_iff.2 last, only]
  | exhausted hp last => simp [controllerStep_adv hp, advStep, last]
  | advance hp more => simp [controllerStep_adv hp, advStep, more]

/-- R224: what the step table may change: never CMDLATCH, VONLY, the error record, the configuration, VINIT or V32. -/
theorem ControlMove.frame {s u : State} (h : ControlMove s u) : ControlFrame s u := by
  cases h <;> exact ⟨_, _, _, _, _, _, _, _, _, _, _, _, _, _, _, _, _, rfl⟩

theorem ControlMove.running {s u : State} (h : ControlMove s u) : s.phase ≠ .idle ∧ s.phase ≠ .exec := by
  cases h with
  | _ phase => simp [phase]

/-! ### The moves -/

/-- R280: why a Word written to CMD while it cannot be taken is refused, and the error recorded. -/
inductive Refused (s : State) (w : Word) : CmdError → Prop where
  | busy (running : s.phase ≠ .idle) (other : w ≠ 0x0000002F#32) : Refused s w .busy
  | illegal (idle : s.phase = .idle) (word : decode w = none) : Refused s w .badCmd
  | failing {i : Instr} {e : CmdError} (idle : s.phase = .idle) (word : decode w = some i)
      (fails : acceptanceFailing i s = some e) : Refused s w e

/-- R22: what the turn at the head of `turns` can do to the block before it is over. -/
inductive Move (s : State) : State → Prop where
  | rest (turn : Claims.engineNext s) (idle : s.phase = .idle) : Move s s
  | execute {i : Instr} (turn : Claims.engineNext s) (exec : s.phase = .exec) (latched : decode s.cmdLatch = some i)
      (simple : isSimple i = true) (passes : acceptanceFailing i s = none) : Move s (finish (effectOf i s))
  | control {i : Instr} {u : State} (turn : Claims.engineNext s) (latched : decode s.cmdLatch = some i)
      (row : ControlMove s u) : Move s u
  | read {a : BitVec 5} {rest : List Turn} (turn : s.turns = .read a :: rest) : Move s (hostReadTurn a s)
  | register {a : BitVec 5} {d : Word} {rest : List Turn} (turn : s.turns = .write a d :: rest) (reg : regAt a ≠ .cmd) :
      Move s (hostWrite a d s)
  | refuse {w : Word} {e : CmdError} {rest : List Turn} (turn : s.turns = .write 0#5 w :: rest) (why : Refused s w e) :
      Move s (raise e w s)
  | request {rest : List Turn} (turn : s.turns = .write 0#5 0x0000002F#32 :: rest) (running : s.phase ≠ .idle) :
      Move s (requestAbort s)
  | accept {w : Word} {i : Instr} {rest : List Turn} (turn : s.turns = .write 0#5 w :: rest) (idle : s.phase = .idle)
      (word : decode w = some i) (passes : acceptanceFailing i s = none) : Move s (Claims.accepted i w s)
  | reset {rest : List Turn} (turn : s.turns = .reset :: rest) : Move s (resetPulse s)

theorem engineNext_actor {s : State} (h : Claims.engineNext s) : actor s = .engine := by
  rcases h with h | ⟨_, h⟩
  · exact actor_of_nil h
  · exact actor_of_engine h

theorem takeTurn_of_engineNext {s : State} (h : Claims.engineNext s) : takeTurn s = engineTurn s := by
  rcases h with h | ⟨_, h⟩
  · exact takeTurn_nil h
  · exact takeTurn_engine h

/-- R22, R223: the engine's turn in IDLE. -/
theorem engineTurn_idle {s : State} (h : s.phase = .idle) : engineTurn s = .next s := by simp only [engineTurn, h]

/-- R223: the engine's turn while a command runs. -/
theorem engineTurn_of_decode {s : State} {i : Instr} (h : s.phase ≠ .idle) (hd : decode s.cmdLatch = some i) :
    engineTurn s = exec i s := by
  unfold engineTurn
  split
  · contradiction
  · rw [hd]

/-- Log 12: the engine's turn while a command runs and CMDLATCH holds no legal Word. -/
theorem engineTurn_of_illegal {s : State} (h : s.phase ≠ .idle) (hd : decode s.cmdLatch = none) :
    engineTurn s = .fault .latchIllegal := by
  unfold engineTurn
  split
  · contradiction
  · rw [hd]

/-- R34: only address 0 is CMD. -/
theorem eq_zero_of_regAt {a : BitVec 5} (h : regAt a = .cmd) : a = 0#5 := by
  revert a; decide

/-- R280: a Word written to CMD is a request, an accepted command or refused. -/
theorem commandWrite_move {s : State} {w : Word} {rest : List Turn} (turn : s.turns = .write 0#5 w :: rest) :
    ∃ u, commandWrite w s = .next u ∧ Move s u := by
  have ha : actor s = .host := actor_of_write turn
  by_cases hs : s.phase = .idle
  · cases hd : decode w with
    | none => exact ⟨_, commandWrite_illegal_idle hs hd, .refuse turn (.illegal hs hd)⟩
    | some i =>
      rw [commandWrite_of_decode hd, exec_host_idle i ha hs, encode_of_decode hd]
      cases hf : acceptanceFailing i s with
      | some e => exact ⟨_, rfl, submit_failing hs w e _ ▸ .refuse turn (.failing hs hd hf)⟩
      | none => exact ⟨_, rfl, submit_accepted hs w _ ▸ entering_accept i w s ▸ .accept turn hs hd hf⟩
  · by_cases hw : w = 0x0000002F#32
    · subst hw
      exact ⟨_, commandWrite_abort_busy ha hs, requestAbort_eq_abortWhileBusy s ▸ .request turn hs⟩
    · exact ⟨_, commandWrite_busy ha hs hw, .refuse turn (.busy hs hw)⟩

/-- R31, R34: a host write is a move. -/
theorem hostWriteTurn_move {s : State} {a : BitVec 5} {d : Word} {rest : List Turn} (turn : s.turns = .write a d :: rest) :
    ∃ u, hostWriteTurn a d s = .next u ∧ Move s u := by
  by_cases hr : regAt a = .cmd
  · obtain rfl := eq_zero_of_regAt hr
    exact commandWrite_move turn
  · exact ⟨_, hostWriteTurn_of_ne_cmd hr d s, .register turn hr⟩

/-- R22: a step that answers is a move, and the turn is over. -/
theorem move_of_step {s t : State} (h : step s = .next t) : ∃ u, Move s u ∧ t = endTurn u := by
  obtain ⟨u, hu, rfl⟩ := mapNext_eq_next h
  refine ⟨u, ?_, rfl⟩
  rcases turn_cases s with ⟨turn, htake, ha⟩ | ⟨a, rest, turn, htake⟩ | ⟨a, d, rest, turn, htake, -⟩ | ⟨rest, turn, htake⟩ <;>
    rw [htake] at hu
  · rcases engineTurn_cases ha hu with ⟨hp, rfl⟩ | ⟨hp, i, hd, hi, hf, rfl⟩ | ⟨hp, he, rfl⟩
    · exact .rest turn hp
    · exact .execute turn hp hd hi hf
    · cases hd : decode s.cmdLatch with
      | none => rw [engineTurn_of_illegal hp hd] at hu; cases hu
      | some i => exact .control turn hd (controllerStep_move hp he)
  · cases hu
    exact .read turn
  · obtain ⟨v, hv, hmove⟩ := hostWriteTurn_move turn
    rw [hv] at hu
    cases hu
    exact hmove
  · cases hu
    exact .reset turn

/-- R22: the moves of a state are one, so what is known of the turn fixes the step. -/
theorem step_of_move {s u : State} (h : Move s u) : step s = .next (endTurn u) := by
  suffices htake : takeTurn s = .next u by rw [step, htake, mapNext_next]
  cases h with
  | rest turn idle => rw [takeTurn_of_engineNext turn, engineTurn_idle idle]
  | execute turn hexec latched simple passes =>
    have hrun : s.phase ≠ .idle := by simp [hexec]
    rw [takeTurn_of_engineNext turn, engineTurn_of_decode hrun latched, exec_engine_exec simple (engineNext_actor turn) hexec,
      simpleExec_of_none passes]
  | control turn latched row =>
    obtain ⟨running, notExec⟩ := row.running
    rw [← controllerStep_of_move row, takeTurn_of_engineNext turn, engineTurn_of_decode running latched,
      exec_engine_controller _ (engineNext_actor turn) running notExec]
  | read turn => exact takeTurn_read turn
  | register turn reg => rw [takeTurn_write turn, hostWriteTurn_of_ne_cmd reg]
  | refuse turn why =>
    have ha := actor_of_write turn
    rw [takeTurn_write turn]
    show commandWrite _ s = _
    cases why with
    | busy running other => exact commandWrite_busy ha running other
    | illegal idle word => exact commandWrite_illegal_idle idle word
    | failing idle word fails =>
      rw [commandWrite_of_decode word, exec_host_idle _ ha idle, fails, submit_failing idle, encode_of_decode word]
  | request turn running =>
    rw [takeTurn_write turn, requestAbort_eq_abortWhileBusy]
    exact commandWrite_abort_busy (actor_of_write turn) running
  | accept turn idle word passes =>
    rw [takeTurn_write turn]
    show commandWrite _ s = _
    rw [commandWrite_of_decode word, exec_host_idle _ (actor_of_write turn) idle, passes, submit_accepted idle,
      encode_of_decode word, entering_accept]
  | reset turn => exact takeTurn_reset turn

end Sys2Proof.Machine
end

section
/-! Every step keeps the coherence of the state (10_state.md R57, 44_search.md R223, R225, 60_exceptions.md R272): one lemma for
each part of `Coherent`, over the moves. -/

namespace Sys2Proof.Machine

theorem Coherent.scratch {s : State} (h : Coherent s) (x : RowSet) : scratchOk x s := by
  cases x
  · exact h.scratchA
  · exact h.scratchB

/-! ### What the position gives in each phase -/

theorem Coherent.abortReq_of_idle {s : State} (h : Coherent s) (hp : s.phase = .idle) : s.abortReq = false := by
  simpa [positionOk, hp] using h.position

theorem Coherent.ready {s : State} (h : Coherent s) (hp : s.phase = .exec) :
    s.vonly = false ∧ s.abortReq = false ∧ latchReady s = true := by
  simpa [positionOk, hp] using h.position

/-- R230: the phases of the first row, and ADV, belong to a search. -/
theorem Coherent.searching {s : State} (h : Coherent s)
    (hp : s.phase = .pPair ∨ s.phase = .pK3 ∨ s.phase = .pK4 ∨ s.phase = .pK5 ∨ s.phase = .adv) : searching s := by
  have hpos := h.position
  rcases hp with hp | hp | hp | hp | hp <;> simp only [positionOk, hp] at hpos
  · exact hpos
  all_goals exact hpos.1

/-- R233, R239: the phases of the second row verify. -/
theorem Coherent.verifying {s : State} (h : Coherent s)
    (hp : s.phase = .vS1 ∨ s.phase = .vS2 ∨ s.phase = .vS3 ∨ s.phase = .vK5) : verifying s := by
  have hpos := h.position
  rcases hp with hp | hp | hp | hp <;> simp only [positionOk, hp] at hpos
  · exact hpos
  all_goals exact hpos.1

/-- R233: a verification that is not VERIFY's is a search's. -/
theorem verifying.searching {s : State} (h : verifying s) (hv : s.vonly = false) :
    searching s ∧ s.validA.sv8 = true := by
  rcases h with ⟨hvonly, -⟩ | h
  · rw [hv] at hvonly
    cases hvonly
  · exact h

theorem verifying.setInit_b {s : State} (h : verifying s) : setInit .b s = true := by
  rcases h with ⟨-, -, hb, -⟩ | ⟨⟨-, -, -, hb, -⟩, -⟩ <;> exact hb

theorem Coherent.validA_sv24 {s : State} (h : Coherent s) (hp : s.phase = .pK3) : s.validA.sv24 = true := by
  have hpos := h.position
  simp only [positionOk, hp] at hpos
  exact hpos.2

theorem Coherent.validA_sv16 {s : State} (h : Coherent s) (hp : s.phase = .pK4) : s.validA.sv16 = true := by
  have hpos := h.position
  simp only [positionOk, hp] at hpos
  exact hpos.2

theorem Coherent.validA_sv8 {s : State} (h : Coherent s) (hp : s.phase = .pK5 ∨ s.phase = .adv) :
    s.validA.sv8 = true := by
  have hpos := h.position
  rcases hp with hp | hp <;> simp only [positionOk, hp] at hpos <;> exact hpos.2

theorem Coherent.validB_sv24 {s : State} (h : Coherent s) (hp : s.phase = .vS2) : s.validB.sv24 = true := by
  have hpos := h.position
  simp only [positionOk, hp] at hpos
  exact hpos.2

theorem Coherent.validB_sv16 {s : State} (h : Coherent s) (hp : s.phase = .vS3) : s.validB.sv16 = true := by
  have hpos := h.position
  simp only [positionOk, hp] at hpos
  exact hpos.2

theorem Coherent.validB_sv8 {s : State} (h : Coherent s) (hp : s.phase = .vK5) : s.validB.sv8 = true := by
  have hpos := h.position
  simp only [positionOk, hp] at hpos
  exact hpos.2

/-- R55: while a command runs CMDLATCH holds a legal Word. -/
theorem Coherent.latched {s : State} (h : Coherent s) (hp : s.phase ≠ .idle) : ∃ i, decode s.cmdLatch = some i := by
  have ofSearching (hs : Machine.searching s) : ∃ i, decode s.cmdLatch = some i := by
    obtain ⟨-, -, -, -, -, -, hd | hd⟩ := hs <;> exact ⟨_, hd⟩
  have ofVerifying (hv : Machine.verifying s) : ∃ i, decode s.cmdLatch = some i := by
    rcases hv with ⟨-, -, -, hd⟩ | ⟨hs, -⟩
    · exact ⟨_, hd⟩
    · exact ofSearching hs
  cases hphase : s.phase with
  | idle => exact absurd hphase hp
  | exec =>
    obtain ⟨-, -, hready⟩ := h.ready hphase
    cases hd : decode s.cmdLatch with
    | none => simp [latchReady, hd] at hready
    | some i => exact ⟨i, rfl⟩
  | pPair | pK3 | pK4 | pK5 | adv => exact ofSearching (h.searching (by simp [hphase]))
  | vS1 | vS2 | vS3 | vK5 => exact ofVerifying (h.verifying (by simp [hphase]))

/-- R223: what CMDLATCH holds in EXEC is a simple command whose checks hold. -/
theorem Coherent.latched_exec {s : State} (h : Coherent s) (hp : s.phase = .exec) :
    ∃ i, decode s.cmdLatch = some i ∧ isSimple i = true ∧ acceptanceFailing i s = none := by
  obtain ⟨i, hd⟩ := h.latched (by simp [hp])
  obtain ⟨-, -, hready⟩ := h.ready hp
  simp only [latchReady, hd, Bool.and_eq_true, Option.isNone_iff_eq_none] at hready
  exact ⟨i, hd, hready⟩

/-! ### The memories stay canonical -/

theorem stage1_memoriesWf {s : State} (h : memoriesWf s) (x : RowSet) : memoriesWf (stage1 x s) := by
  intro k
  obtain ⟨h32, -, h16, h8⟩ := h k
  simp only [stage1, setValid_v32, setValid_v24, setValid_v16, setValid_v8]
  exact ⟨h32, mapRows_wf (fun j => (h j).2.1) (fun _ => reduce1_wf _ _ _ _ _) k, h16, h8⟩

theorem stage2_memoriesWf {s : State} (h : memoriesWf s) (x : RowSet) : memoriesWf (stage2 x s) := by
  intro k
  obtain ⟨h32, h24, -, h8⟩ := h k
  simp only [stage2, setValid_v32, setValid_v24, setValid_v16, setValid_v8]
  exact ⟨h32, h24, mapRows_wf (fun j => (h j).2.2.1) (fun _ => reduce2_wf _ _ _) k, h8⟩

theorem stage3_memoriesWf {s : State} (h : memoriesWf s) (x : RowSet) : memoriesWf (stage3 x s) := by
  intro k
  obtain ⟨h32, h24, h16, -⟩ := h k
  simp only [stage3, setValid_v32, setValid_v24, setValid_v16, setValid_v8]
  exact ⟨h32, h24, h16, mapRows_wf (fun j => (h j).2.2.2) (fun _ => reduce3_wf _ _ _) k⟩

/-- A slot of V32 replaced by a canonical memory; the valid bits do not matter. -/
theorem load_memoriesWf {s : State} (h : memoriesWf s) {m : Memory} (hm : Memory.wf 32 m) (k : Slot)
    (vinit : Vector Bool 6) (x : RowSet) (v : Valid) :
    memoriesWf (setValid x v { s with v32 := s.v32.set k m, vinit := vinit }) := by
  intro j
  obtain ⟨-, h24, h16, h8⟩ := h j
  simp only [setValid_v32, setValid_v24, setValid_v16, setValid_v8]
  exact ⟨set_wf (fun j => (h j).1) hm k j, h24, h16, h8⟩

theorem effectOf_memoriesWf {s : State} (h : memoriesWf s) (i : Instr) : memoriesWf (effectOf i s) := by
  cases i with
  | vclr arg => exact onSlot_induction h fun k _ => load_memoriesWf h (memZero_wf 32) k _ _ _
  | vflip arg => exact onSlot_induction h fun k _ => load_memoriesWf h (memFlip_wf (h k).1 s.idx.isLt) k _ _ _
  | vtest arg | stest24 arg | stest16 arg | stest8 arg | tsum arg => exact onSlot_induction h fun _ _ => h
  | red1 x => exact stage1_memoriesWf h x
  | red2 x => exact stage2_memoriesWf h x
  | red3 x => exact stage3_memoriesWf h x
  | nop | extract _ | place | zchk _ | search | resume | verify | abort => exact h

theorem ControlMove.memoriesWf {s u : State} (row : ControlMove s u) (h : memoriesWf s) : memoriesWf u := by
  cases row with
  | pair => exact stage1_memoriesWf h .a
  | k3 => exact stage2_memoriesWf h .a
  | k4 => exact stage3_memoriesWf h .a
  | s1 => exact stage1_memoriesWf h .b
  | s2 => exact stage2_memoriesWf h .b
  | s3 => exact stage3_memoriesWf h .b
  | abort | candidate | nextK5 | noCandidate | verified | found | nextK5v | unverified | discard | exhausted | advance =>
    exact h

/-- Log 6: every move keeps the memories canonical. -/
theorem Move.memoriesWf {s u : State} (move : Move s u) (h : memoriesWf s) : memoriesWf u := by
  cases move with
  | rest | read => exact h
  | execute => exact effectOf_memoriesWf h _
  | control _ _ row => exact row.memoriesWf h
  | @register a d =>
    obtain ⟨_, _, _, _, _, _, _, _, _, _, _, _, _, hw⟩ := hostWrite_frame a d s
    exact hw ▸ h
  | @refuse w e =>
    obtain ⟨_, _, hr⟩ := raise_frame e w s
    exact hr ▸ h
  | request =>
    simp only [Machine.memoriesWf, requestAbort_v32, requestAbort_v24, requestAbort_v16, requestAbort_v8]
    exact h
  | @accept w i =>
    obtain ⟨_, _, _, _, _, _, _, _, _, ha⟩ := accepted_frame i w s
    exact ha ▸ h
  | reset => exact reset_memoriesWf

/-! ### A valid width derives from the one above it -/

/-- R57, of both sets. -/
def allScratchOk (s : State) : Prop := ∀ x, scratchOk x s

theorem Coherent.allScratchOk {s : State} (h : Coherent s) : allScratchOk s := fun x =>
  match x with
  | .a => h.scratchA
  | .b => h.scratchB

theorem allScratchOk.congr {s u : State} (h : allScratchOk s) (ha : u.validA = s.validA) (hb : u.validB = s.validB)
    (hv : u.vinit = s.vinit) : allScratchOk u := by
  intro x
  have hx := h x
  cases x <;> simpa only [scratchOk, validOf, setInit, ha, hb, hv] using hx

/-- R57: writing the valid bits of a set keeps the order of the widths, if what is written has it. -/
theorem allScratchOk.setValid {s : State} {x : RowSet} {v : Valid} (h : allScratchOk s)
    (h24 : v.sv24 = true → setInit x s = true) (h16 : v.sv16 = true → v.sv24 = true)
    (h8 : v.sv8 = true → v.sv16 = true) : allScratchOk (setValid x v s) := by
  intro y
  have hinit : setInit y (Machine.setValid x v s) = setInit y s := by simp only [setInit, setValid_vinit]
  by_cases hy : y = x
  · subst hy
    simp only [scratchOk, validOf_setValid_self, hinit]
    exact ⟨h24, h16, h8⟩
  · simp only [scratchOk, validOf_setValid_of_ne hy, hinit]
    exact h y

/-- R56, R161: a slot that has been cleared stays cleared. -/
theorem setInit_set {s : State} {x : RowSet} (h : setInit x s = true) (k : Slot) (v32 : Vector Memory 6) :
    setInit x { s with v32 := v32, vinit := s.vinit.set k true } = true := by
  rw [setInit_iff] at h ⊢
  intro j hj
  have hs : s.vinit[j.val] = true := h j hj
  simp [Vector.getElem_set, hs]

theorem clearSlot_scratchOk {s : State} (h : allScratchOk s) (k : Slot) : allScratchOk (clearSlot k s) := by
  unfold clearSlot
  refine allScratchOk.setValid (fun x => ?_) (fun h24 => by cases h24) (fun h16 => by cases h16) (fun h8 => by cases h8)
  obtain ⟨h24, h16, h8⟩ := h x
  cases x <;> exact ⟨fun hv => setInit_set (h24 hv) k _, h16, h8⟩

theorem flipSlot_scratchOk {s : State} (h : allScratchOk s) (k : Slot) : allScratchOk (flipSlot k s) := by
  unfold flipSlot
  refine allScratchOk.setValid (h.congr rfl rfl rfl) ?_ ?_ ?_ <;> simp [afterLoad]

theorem stage1_scratchOk {s : State} (h : allScratchOk s) {x : RowSet} (hx : setInit x s = true) :
    allScratchOk (stage1 x s) := by
  unfold stage1
  exact allScratchOk.setValid (h.congr rfl rfl rfl) (fun _ => hx) (fun h16 => by cases h16) (fun h8 => by cases h8)

theorem stage2_scratchOk {s : State} (h : allScratchOk s) {x : RowSet} (hx : (validOf x s).sv24 = true) :
    allScratchOk (stage2 x s) := by
  obtain ⟨h24, -, -⟩ := h x
  unfold stage2
  exact allScratchOk.setValid (h.congr rfl rfl rfl) h24 (fun _ => hx) (fun h8 => by cases h8)

theorem stage3_scratchOk {s : State} (h : allScratchOk s) {x : RowSet} (hx : (validOf x s).sv16 = true) :
    allScratchOk (stage3 x s) := by
  obtain ⟨h24, h16, -⟩ := h x
  unfold stage3
  exact allScratchOk.setValid (h.congr rfl rfl rfl) h24 h16 (fun _ => hx)

/-- R280: a command passes when none of its checks fails. -/
theorem firstFailing_eq_none_iff (checks : List (Bool × CmdError)) :
    firstFailing checks = none ↔ ∀ check ∈ checks, check.1 = false := by
  induction checks with
  | nil => simp [firstFailing]
  | cons check rest ih =>
    rw [firstFailing, List.forall_mem_cons, ← ih]
    cases check.1 <;> simp

/-- R57, R181: RED1's check. -/
theorem setInit_of_red1 {x : RowSet} {s : State} (h : acceptanceFailing (.red1 x) s = none) : setInit x s = true := by
  simpa [acceptanceFailing, red1Failing, firstFailing_eq_none_iff] using h

/-- R57, R186: RED2's check. -/
theorem sv24_of_red2 {x : RowSet} {s : State} (h : acceptanceFailing (.red2 x) s = none) :
    (validOf x s).sv24 = true := by
  simpa [acceptanceFailing, red2Failing, firstFailing_eq_none_iff] using h

/-- R57, R191: RED3's check. -/
theorem sv16_of_red3 {x : RowSet} {s : State} (h : acceptanceFailing (.red3 x) s = none) :
    (validOf x s).sv16 = true := by
  simpa [acceptanceFailing, red3Failing, firstFailing_eq_none_iff] using h

theorem effectOf_scratchOk {s : State} (h : allScratchOk s) {i : Instr} (passes : acceptanceFailing i s = none) :
    allScratchOk (effectOf i s) := by
  cases i with
  | vclr arg => exact onSlot_induction h fun k _ => clearSlot_scratchOk h k
  | vflip arg => exact onSlot_induction h fun k _ => flipSlot_scratchOk h k
  | vtest arg | stest24 arg | stest16 arg | stest8 arg | tsum arg =>
    exact onSlot_induction h fun _ _ => h.congr rfl rfl rfl
  | red1 x => exact stage1_scratchOk h (setInit_of_red1 passes)
  | red2 x => exact stage2_scratchOk h (sv24_of_red2 passes)
  | red3 x => exact stage3_scratchOk h (sv16_of_red3 passes)
  | nop | extract _ | place | zchk _ | search | resume | verify | abort => exact h.congr rfl rfl rfl

theorem ControlMove.allScratchOk {s u : State} (row : ControlMove s u) (h : Coherent s) : allScratchOk u := by
  cases row with
  | pair hp =>
    obtain ⟨-, -, ha, -⟩ := h.searching (.inl hp)
    exact (stage1_scratchOk h.allScratchOk ha).congr rfl rfl rfl
  | k3 hp => exact (stage2_scratchOk (x := .a) h.allScratchOk (h.validA_sv24 hp)).congr rfl rfl rfl
  | k4 hp => exact (stage3_scratchOk (x := .a) h.allScratchOk (h.validA_sv16 hp)).congr rfl rfl rfl
  | s1 hp => exact (stage1_scratchOk h.allScratchOk (h.verifying (.inl hp)).setInit_b).congr rfl rfl rfl
  | s2 hp => exact (stage2_scratchOk (x := .b) h.allScratchOk (h.validB_sv24 hp)).congr rfl rfl rfl
  | s3 hp => exact (stage3_scratchOk (x := .b) h.allScratchOk (h.validB_sv16 hp)).congr rfl rfl rfl
  | abort | candidate | nextK5 | noCandidate | verified | found | nextK5v | unverified | discard | exhausted | advance =>
    exact h.allScratchOk.congr rfl rfl rfl

/-- R57: every move keeps the order of the valid widths. -/
theorem Move.allScratchOk {s u : State} (move : Move s u) (h : Coherent s) : allScratchOk u := by
  cases move with
  | rest | read => exact h.allScratchOk.congr rfl rfl rfl
  | execute _ _ _ _ passes => exact effectOf_scratchOk h.allScratchOk passes
  | control _ _ row => exact row.allScratchOk h
  | @register a d =>
    obtain ⟨_, _, _, _, _, _, _, _, _, _, _, _, _, hw⟩ := hostWrite_frame a d s
    exact hw ▸ h.allScratchOk.congr rfl rfl rfl
  | refuse => exact h.allScratchOk.congr (raise_validA ..) (raise_validB ..) (raise_vinit ..)
  | request => exact h.allScratchOk.congr (requestAbort_validA _) (requestAbort_validB _) (requestAbort_vinit _)
  | @accept w i =>
    obtain ⟨_, _, _, _, _, _, _, _, _, ha⟩ := accepted_frame i w s
    exact ha ▸ h.allScratchOk.congr rfl rfl rfl
  | reset =>
    intro x
    cases x <;> exact ⟨nofun, nofun, nofun⟩

/-! ### The error record, DONE, and the outcome of a search -/

theorem hostWrite_record {s : State} (h : s.err = none → s.errinfo = 0#32) (a : BitVec 5) (d : Word) :
    (hostWrite a d s).err = none → (hostWrite a d s).errinfo = 0#32 := by
  have hidle (f : State → State) (hf : (f s).err = s.err ∧ (f s).errinfo = s.errinfo) :
      (idleWrite a f s).err = none → (idleWrite a f s).errinfo = 0#32 := by
    unfold idleWrite
    split
    · simp [raise_err]
    · rwa [hf.1, hf.2]
  unfold hostWrite
  cases regAt a with
  | status =>
    show (statusWrite d s).err = none → (statusWrite d s).errinfo = 0#32
    unfold statusWrite
    cases d[8] with
    | true => exact fun _ => rfl
    | false => cases d[1] <;> exact h
  | cfg | kg | k5r | idx | ct _ | key _ => exact hidle _ ⟨rfl, rfl⟩
  | cmd | ctrl | result | fpcnt | errinfo | reserved => exact h

/-- R272, R274: the error record is empty or whole after every move. -/
theorem Move.record {s u : State} (move : Move s u) (h : Coherent s) : u.err = none → u.errinfo = 0#32 := by
  cases move with
  | rest | read => exact h.record
  | @execute i =>
    obtain ⟨_, _, _, _, _, _, _, _, _, _, he⟩ := effectOf_frame i s
    exact he ▸ h.record
  | control _ _ row =>
    obtain ⟨_, _, _, _, _, _, _, _, _, _, _, _, _, _, _, _, _, rfl⟩ := row.frame
    exact h.record
  | @register a d => exact hostWrite_record h.record a d
  | refuse => simp [raise_err]
  | request => simpa using h.record
  | @accept w i =>
    obtain ⟨_, _, _, _, _, _, _, _, _, ha⟩ := accepted_frame i w s
    exact ha ▸ h.record
  | reset => exact fun _ => rfl

theorem hostWrite_done {a : BitVec 5} {d : Word} {s : State} (h : (hostWrite a d s).done = true) : s.done = true := by
  have hidle (f : State → State) (hf : (f s).done = s.done) (h : (idleWrite a f s).done = true) : s.done = true := by
    unfold idleWrite at h
    split at h
    · simpa using h
    · exact hf ▸ h
  unfold hostWrite at h
  cases hr : regAt a <;> rw [hr] at h
  case status =>
    replace h : (statusWrite d s).done = true := h
    unfold statusWrite at h
    cases h1 : d[1] <;> cases h8 : d[8] <;> simp [h1, h8] at h <;> exact h
  case cfg | kg | k5r | idx | ct | key => exact hidle _ rfl h
  all_goals exact h

/-- R223, R221: DONE is 1 only while idle after every move. -/
theorem Move.completion {s u : State} (move : Move s u) (h : Coherent s) : u.done = true → u.phase = .idle := by
  cases move with
  | rest | read => exact h.completion
  | execute => exact fun _ => rfl
  | control _ _ row =>
    intro hd
    have hs : s.done = true → False := fun hs => row.running.1 (h.completion hs)
    cases row with
    | abort | verified | found | unverified | exhausted => rfl
    | pair | k3 | k4 | s1 | s2 | s3 | candidate | nextK5 | noCandidate | nextK5v | discard | advance => exact (hs hd).elim
  | @register a d =>
    intro hd
    obtain ⟨_, _, _, _, _, _, _, _, _, _, _, _, _, hw⟩ := hostWrite_frame a d s
    rw [hw]
    exact h.completion (hostWrite_done hd)
  | refuse => simpa using h.completion
  | request => simpa using h.completion
  | @accept w i =>
    obtain ⟨_, _, _, _, _, _, _, _, _, ha⟩ := accepted_frame i w s
    rw [ha]
    nofun
  | reset => nofun

/-- R235, R242: no move leaves both FOUND and ABORTED. -/
theorem Move.outcome {s u : State} (move : Move s u) (h : Coherent s) : ¬(u.found = true ∧ u.aborted = true) := by
  cases move with
  | rest | read => exact h.outcome
  | @execute i =>
    obtain ⟨_, _, _, _, _, _, _, _, _, _, he⟩ := effectOf_frame i s
    exact he ▸ h.outcome
  | control _ _ row =>
    cases row with
    | abort hp =>
      obtain ⟨-, -, -, -, hfound, -⟩ := h.searching (.inl hp)
      exact fun ⟨hf, _⟩ => Bool.noConfusion (hfound.symm.trans hf)
    | found hp _ only =>
      obtain ⟨⟨-, -, -, -, -, haborted, -⟩, -⟩ := (h.verifying (by simp [hp])).searching only
      exact fun ⟨_, ha⟩ => Bool.noConfusion (haborted.symm.trans ha)
    | pair | k3 | k4 | s1 | s2 | s3 | candidate | nextK5 | noCandidate | nextK5v | discard | advance
    | verified | unverified | exhausted => exact h.outcome
  | @register a d =>
    obtain ⟨_, _, _, _, _, _, _, _, _, _, _, _, _, hw⟩ := hostWrite_frame a d s
    exact hw ▸ h.outcome
  | refuse => simpa using h.outcome
  | request => simpa using h.outcome
  | @accept w i =>
    cases i with
    | search | resume => nofun
    | _ => exact h.outcome
  | reset => nofun

end Sys2Proof.Machine
end

section
/-! What each phase relies on is kept (44_search.md R223, R225), and with it coherence; no coherent state stops. -/

namespace Sys2Proof.Machine

/-! ### The position -/

/-- R230, R238: the checks of SEARCH and RESUME. -/
theorem ids_and_slots_of_passes {i : Instr} (hi : i = .search ∨ i = .resume) {s : State}
    (passes : acceptanceFailing i s = none) :
    idInRange s.configId = true ∧ setInit .a s = true ∧ setInit .b s = true := by
  rcases hi with rfl | rfl <;>
    simpa [acceptanceFailing, searchFailing, resumeFailing, firstFailing_eq_none_iff, configIdBad] using passes

/-- R239: the check of VERIFY. -/
theorem setInit_b_of_passes {s : State} (passes : acceptanceFailing .verify s = none) : setInit .b s = true := by
  simpa [acceptanceFailing, verifyFailing, firstFailing_eq_none_iff] using passes

/-- R231: ADV goes back at most as far as the highest byte that changed. -/
theorem advPhase_cases (q : Word) :
    (quadByte q 3 ≠ 0#8 ∧ advPhase q = .pK4) ∨ (quadByte q 3 = 0#8 ∧ quadByte q 2 ≠ 0#8 ∧ advPhase q = .pK3) ∨
      (quadByte q 3 = 0#8 ∧ quadByte q 2 = 0#8 ∧ advPhase q = .pPair) := by
  unfold advPhase
  by_cases h3 : quadByte q 3 = 0#8 <;> by_cases h2 : quadByte q 2 = 0#8 <;> simp [h3, h2]

theorem ControlMove.position {s u : State} (row : ControlMove s u) (h : Coherent s) : positionOk u := by
  cases row with
  | abort | verified | found | unverified | exhausted => rfl
  | pair hp => exact And.intro (h.searching (by simp [hp])) rfl
  | k3 hp => exact And.intro (h.searching (by simp [hp])) rfl
  | k4 hp => exact And.intro (h.searching (by simp [hp])) rfl
  | candidate hp => exact Or.inr ⟨h.searching (by simp [hp]), h.validA_sv8 (.inl hp)⟩
  | nextK5 => exact h.position
  | noCandidate hp => exact And.intro (h.searching (by simp [hp])) (h.validA_sv8 (.inl hp))
  | s1 hp => exact And.intro (h.verifying (by simp [hp])) rfl
  | s2 hp => exact And.intro (h.verifying (by simp [hp])) rfl
  | s3 hp => exact And.intro (h.verifying (by simp [hp])) rfl
  | nextK5v => exact h.position
  | discard hp _ _ only => exact (h.verifying (by simp [hp])).searching only
  | advance hp =>
    have hsearch : Machine.searching s := h.searching (by simp [hp])
    have hsv8 : s.validA.sv8 = true := h.validA_sv8 (.inr hp)
    obtain ⟨-, h16, h8⟩ := h.scratchA
    have hsv16 : s.validA.sv16 = true := h8 hsv8
    have hsv24 : s.validA.sv24 = true := h16 hsv16
    rcases advPhase_cases (s.kg + 1#32) with ⟨-, hq⟩ | ⟨-, -, hq⟩ | ⟨-, -, hq⟩ <;> rw [hq]
    · exact And.intro hsearch hsv16
    · exact And.intro hsearch hsv24
    · exact hsearch

theorem hostWrite_position {s : State} (h : positionOk s) (a : BitVec 5) (d : Word) : positionOk (hostWrite a d s) := by
  by_cases hp : s.phase = .idle
  · obtain ⟨_, _, _, _, _, _, _, _, _, _, _, _, _, hw⟩ := hostWrite_frame a d s
    rw [hw]
    simpa [positionOk, hp] using h
  · obtain ⟨_, _, _, _, _, hw⟩ := hostWrite_busy_frame a d hp
    exact hw ▸ h

/-- R241: a request changes nothing that a phase relies on. -/
theorem requestAbort_position {s : State} (h : Coherent s) (hp : s.phase ≠ .idle) : positionOk (requestAbort s) := by
  unfold requestAbort
  split
  next => exact h.position
  next hreq =>
    obtain ⟨hexec, hvonly⟩ := not_or.1 hreq
    have ofVerifying (hv : Machine.verifying s) : Machine.verifying { s with abortReq := true } :=
      .inr (hv.searching (Bool.eq_false_iff.2 hvonly))
    have hpos := h.position
    cases hphase : s.phase <;> simp only [positionOk, hphase] at hpos ⊢
    case idle => exact absurd hphase hp
    case exec => exact absurd hphase hexec
    case vS1 => exact ofVerifying hpos
    case vS2 | vS3 | vK5 => exact And.intro (ofVerifying hpos.1) hpos.2
    all_goals exact hpos

/-- R221: a command is accepted into a phase whose needs its checks give. -/
theorem accepted_position {s : State} (habort : s.abortReq = false) {w : Word} {i : Instr} (word : decode w = some i)
    (passes : acceptanceFailing i s = none) : positionOk (Claims.accepted i w s) := by
  have ready (hi : isSimple i = true) (u : State) (hu : acceptanceFailing i u = none) (hlatch : u.cmdLatch = w) :
      latchReady u = true := by
    simp [latchReady, hlatch, word, hi, hu]
  cases i with
  | search =>
    obtain ⟨hid, ha, hb⟩ := ids_and_slots_of_passes (.inl rfl) passes
    exact ⟨rfl, hid, ha, hb, rfl, rfl, .inl word⟩
  | resume =>
    obtain ⟨hid, ha, hb⟩ := ids_and_slots_of_passes (.inr rfl) passes
    exact ⟨rfl, hid, ha, hb, rfl, rfl, .inr word⟩
  | verify => exact Or.inl ⟨rfl, habort, setInit_b_of_passes passes, word⟩
  | _ => exact And.intro rfl (And.intro habort (ready rfl _ passes rfl))

/-- R223, R225: every move leaves what the phase it leads to relies on. -/
theorem Move.position {s u : State} (move : Move s u) (h : Coherent s) : positionOk u := by
  cases move with
  | rest | read => exact h.position
  | execute => rfl
  | control _ _ row => exact row.position h
  | register => exact hostWrite_position h.position _ _
  | @refuse w e =>
    obtain ⟨_, _, hr⟩ := raise_frame e w s
    exact hr ▸ h.position
  | request _ hp => exact requestAbort_position h hp
  | accept _ idle word passes => exact accepted_position (h.abortReq_of_idle idle) word passes
  | reset => rfl

/-! ### Coherence -/

theorem Move.coherent {s u : State} (move : Move s u) (h : Coherent s) : Coherent u where
  memories := move.memoriesWf h.memories
  scratchA := move.allScratchOk h .a
  scratchB := move.allScratchOk h .b
  record := move.record h
  completion := move.completion h
  outcome := move.outcome h
  position := move.position h

/-- Coherence does not look at the turns to come. -/
theorem Coherent.endTurn {s : State} (h : Coherent s) : Coherent (endTurn s) :=
  ⟨h.memories, h.scratchA, h.scratchB, h.record, h.completion, h.outcome, h.position⟩

/-- Settles O53: a step is a move, and every move keeps each part of coherence. -/
theorem stepKeepsCoherence : Obligations.StepKeepsCoherence := fun s t h hstep => by
  obtain ⟨u, move, rfl⟩ := move_of_step hstep
  exact (move.coherent h).endTurn

/-- Settles O54: after reset no slot is initialised, no width valid and nothing pending. -/
theorem resetIsCoherent : Obligations.ResetIsCoherent where
  memories := reset_memoriesWf
  scratchA := ⟨nofun, nofun, nofun⟩
  scratchB := ⟨nofun, nofun, nofun⟩
  record := fun _ => rfl
  completion := nofun
  outcome := nofun
  position := rfl

/-! ### No coherent state stops -/

/-- R223, R224: in a coherent state the engine's turn is a move. -/
theorem Coherent.engineMove {s : State} (h : Coherent s) (turn : Claims.engineNext s) : ∃ u, Move s u := by
  by_cases hp : s.phase = .idle
  · exact ⟨_, .rest turn hp⟩
  · by_cases he : s.phase = .exec
    · obtain ⟨i, hd, hi, passes⟩ := h.latched_exec he
      exact ⟨_, .execute turn he hd hi passes⟩
    · obtain ⟨i, hd⟩ := h.latched hp
      exact ⟨_, .control turn hd (controllerStep_move hp he)⟩

/-- Settles O55: the host's turns and the reset input are moves of any state, the engine's of a coherent one. -/
theorem coherentStatesNeverStop : Obligations.CoherentStatesNeverStop := fun s h => by
  suffices hmove : ∃ u, Move s u by
    obtain ⟨u, move⟩ := hmove
    exact ⟨_, step_of_move move⟩
  rcases turn_cases s with ⟨turn, -⟩ | ⟨a, rest, turn, -⟩ | ⟨a, d, rest, turn, -⟩ | ⟨rest, turn, -⟩
  · exact h.engineMove turn
  · exact ⟨_, .read turn⟩
  · obtain ⟨u, -, move⟩ := hostWriteTurn_move turn
    exact ⟨u, move⟩
  · exact ⟨_, .reset turn⟩

end Sys2Proof.Machine
end

section
/-! The freshness of the scratch vectors of a running search is kept (44_search.md R225). -/

namespace Sys2Proof.Machine

/-! ### The bytes of the next quadruple -/

theorem quadByte_toNat (q : Word) (j : Fin 4) : (quadByte q j).toNat = q.toNat / 2 ^ (8 * (3 - j.val)) % 2 ^ 8 := by
  simp [quadByte, Nat.shiftRight_eq_div_pow]

theorem toNat_add_one {q : Word} (h : q ≠ 0xFFFFFFFF#32) : (q + 1#32).toNat = q.toNat + 1 := by
  bv_omega

/-- R231: while K4 does not wrap, the bytes above it stay. -/
theorem quadByte_add_one_of_k4 {q : Word} (hq : q ≠ 0xFFFFFFFF#32) (h3 : quadByte (q + 1#32) 3 ≠ 0#8) {j : Fin 4} (hj : j.val < 3) :
    quadByte (q + 1#32) j = quadByte q j := by
  have h3' : (q.toNat + 1) % 2 ^ 8 ≠ 0 := by
    intro h
    refine h3 (BitVec.eq_of_toNat_eq ?_)
    rw [quadByte_toNat, toNat_add_one hq]
    simpa using h
  refine BitVec.eq_of_toNat_eq ?_
  rw [quadByte_toNat, quadByte_toNat, toNat_add_one hq]
  match j with
  | 0 | 1 | 2 => simp; omega

/-- R231: while K3 does not wrap, the bytes above it stay. -/
theorem quadByte_add_one_of_k3 {q : Word} (hq : q ≠ 0xFFFFFFFF#32) (h2 : quadByte (q + 1#32) 2 ≠ 0#8) {j : Fin 4} (hj : j.val < 2) :
    quadByte (q + 1#32) j = quadByte q j := by
  have h2' : (q.toNat + 1) / 2 ^ 8 % 2 ^ 8 ≠ 0 := by
    intro h
    refine h2 (BitVec.eq_of_toNat_eq ?_)
    rw [quadByte_toNat, toNat_add_one hq]
    simpa using h
  refine BitVec.eq_of_toNat_eq ?_
  rw [quadByte_toNat, quadByte_toNat, toNat_add_one hq]
  match j with
  | 0 | 1 => simp; omega

/-! ### What a stage makes fresh and what it leaves fresh -/

/-- R196, R233: a stage on set B leaves the rows of set A. -/
theorem mapRows_b_slotAt_a (f : Memory → Memory) (inp out : Vector Memory 6) (r : Fin 3) :
    (mapRows .b f inp out)[slotAt .a r] = out[slotAt .a r] :=
  mapRows_of_ne (by rw [setOfSlot_slotAt]; decide) f inp out

/-- R54, R225: freshness of a set speaks of its own rows, tables and of KG. -/
theorem freshAll.congr {x : RowSet} {s u : State} (h : freshAll x s) (hkg : u.kg = s.kg) (htsel : tselOf x u = tselOf x s)
    (h32 : u.v32 = s.v32) (h24 : ∀ r, u.v24[slotAt x r] = s.v24[slotAt x r])
    (h16 : ∀ r, u.v16[slotAt x r] = s.v16[slotAt x r]) (h8 : ∀ r, u.v8[slotAt x r] = s.v8[slotAt x r]) : freshAll x u := by
  have htable (j : Fin 4) : tableFor x j u = tableFor x j s := by simp only [tableFor, htsel]
  obtain ⟨f24, f16, f8⟩ := h
  refine ⟨fun r => ?_, fun r => ?_, fun r => ?_⟩
  · rw [h24, h32, State.k1, State.k2, hkg, htable, htable]
    exact f24 r
  · rw [h16, h24, State.k3, hkg, htable]
    exact f16 r
  · rw [h8, h16, State.k4, hkg, htable]
    exact f8 r

theorem ControlMove.derived {s u : State} (row : ControlMove s u) (h : Derived s) : Derived u := by
  cases row with
  | abort | verified | found | unverified | exhausted => trivial
  | pair hp => exact fun r => mapRows_slotAt .a _ s.v32 s.v24 r
  | k3 hp =>
    simp only [Derived, hp] at h
    exact And.intro h fun r => mapRows_slotAt .a _ s.v24 s.v16 r
  | k4 hp =>
    simp only [Derived, hp] at h
    obtain ⟨h24, h16⟩ := h
    exact And.intro h24 (And.intro h16 fun r => mapRows_slotAt .a _ s.v16 s.v8 r)
  | candidate hp =>
    simp only [Derived, hp] at h
    exact fun _ => h
  | noCandidate hp =>
    simp only [Derived, hp] at h
    exact h
  | nextK5 | nextK5v => exact h
  | s1 hp =>
    simp only [Derived, hp] at h
    refine And.intro (fun hv => ?_) fun r => mapRows_slotAt .b _ s.v32 s.v24 r
    exact (h hv).congr rfl rfl rfl (fun r => mapRows_b_slotAt_a _ _ _ r) (fun _ => rfl) fun _ => rfl
  | s2 hp =>
    simp only [Derived, hp] at h
    obtain ⟨ha, h24⟩ := h
    refine And.intro (fun hv => ?_) (And.intro h24 fun r => mapRows_slotAt .b _ s.v24 s.v16 r)
    exact (ha hv).congr rfl rfl rfl (fun _ => rfl) (fun r => mapRows_b_slotAt_a _ _ _ r) fun _ => rfl
  | s3 hp =>
    simp only [Derived, hp] at h
    obtain ⟨ha, h24, h16⟩ := h
    refine And.intro (fun hv => ?_) (And.intro h24 (And.intro h16 fun r => mapRows_slotAt .b _ s.v16 s.v8 r))
    exact (ha hv).congr rfl rfl rfl (fun _ => rfl) (fun _ => rfl) fun r => mapRows_b_slotAt_a _ _ _ r
  | discard hp _ _ only =>
    simp only [Derived, hp] at h
    exact h.1 only
  | advance hp more =>
    simp only [Derived, hp] at h
    obtain ⟨h24, h16, -⟩ := h
    rcases advPhase_cases (s.kg + 1#32) with ⟨h3, hq⟩ | ⟨-, h2, hq⟩ | ⟨-, -, hq⟩ <;> rw [hq]
    · refine And.intro (fun r => ?_) fun r => ?_
      · have h1 := quadByte_add_one_of_k4 more h3 (j := 0) (by decide)
        have h2 := quadByte_add_one_of_k4 more h3 (j := 1) (by decide)
        simp only [State.k1, State.k2, h1, h2]
        exact h24 r
      · have h2 := quadByte_add_one_of_k4 more h3 (j := 2) (by decide)
        simp only [State.k3, h2]
        exact h16 r
    · intro r
      have h1 := quadByte_add_one_of_k3 more h2 (j := 0) (by decide)
      have h2 := quadByte_add_one_of_k3 more h2 (j := 1) (by decide)
      simp only [State.k1, State.k2, h1, h2]
      exact h24 r
    · trivial

/-- R225: nothing is claimed in IDLE. -/
theorem derived_of_idle {s : State} (h : s.phase = .idle) : Derived s := by simp [Derived, h]

theorem Move.derived {s u : State} (move : Move s u) (h : Derived s) : Derived u := by
  cases move with
  | rest | read => exact h
  | execute => trivial
  | control _ _ row => exact row.derived h
  | @register a d =>
    by_cases hp : s.phase = .idle
    · obtain ⟨_, _, _, _, _, _, _, _, _, _, _, _, _, hw⟩ := hostWrite_frame a d s
      exact hw ▸ derived_of_idle hp
    · obtain ⟨_, _, _, _, _, hw⟩ := hostWrite_busy_frame a d hp
      exact hw ▸ h
  | @refuse w e =>
    obtain ⟨_, _, hr⟩ := raise_frame e w s
    exact hr ▸ h
  | request =>
    unfold requestAbort
    split <;> exact h
  | @accept w i =>
    cases i with
    | verify => exact fun hv => by cases hv
    | _ => trivial
  | reset => trivial

/-- Settles O57: every move keeps what the phase it leads to has computed. -/
theorem stepKeepsThePipelineFresh : Obligations.StepKeepsThePipelineFresh := fun s t h hstep => by
  obtain ⟨u, move, rfl⟩ := move_of_step hstep
  exact move.derived h

end Sys2Proof.Machine
end

section
/-! Every command ends (44_search.md R226): a count of the engine steps that are left at most, which every step of the step table
brings down, and the runs it bounds. -/

namespace Sys2Proof.Machine

/-! ### Runs -/

theorem endTurn_of_nil {s : State} (h : s.turns = []) : endTurn s = s := by
  have htail : s.turns.tail = s.turns := by rw [h]; rfl
  rw [endTurn, htail]

/-- R224, log 2: with no turn left the step table moves. -/
theorem step_of_controlMove {s u : State} {i : Instr} (turns : s.turns = []) (latched : decode s.cmdLatch = some i)
    (row : ControlMove s u) : step s = .next u := by
  have hu : u.turns = [] := by
    obtain ⟨_, _, _, _, _, _, _, _, _, _, _, _, _, _, _, _, _, rfl⟩ := row.frame
    exact turns
  rw [step_of_move (.control (.inl turns) latched row), endTurn_of_nil hu]

/-- R280, step 7: the step of an accepted command. -/
theorem step_accepted {s : State} {w : Word} {rest : List Turn} {i : Instr} (turns : s.turns = .write 0#5 w :: rest)
    (idle : s.phase = .idle) (word : decode w = some i) (hi : Claims.admissible i s) :
    step s = .next { Claims.accepted i w s with turns := rest } :=
  step_write_cmd turns (commandWrite_accepted (actor_of_write turns) idle word hi) (accepted_turns i w s)

/-- An invariant whose every step outside IDLE ends the command or brings the measure down runs to IDLE in no more steps than
the measure. -/
theorem runs_to_idle {P : State → Prop} {measure : State → Nat}
    (hstep : ∀ s, P s → s.phase ≠ .idle →
      ∃ t, step s = .next t ∧ P t ∧ (t.phase = .idle ∧ 0 < measure s ∨ measure t < measure s))
    {s : State} (hs : P s) : ∃ n t, n ≤ measure s ∧ Claims.runs n s t ∧ P t ∧ t.phase = .idle := by
  induction hm : measure s using Nat.strong_induction_on generalizing s with
  | _ m ih =>
    subst hm
    by_cases hp : s.phase = .idle
    · exact ⟨0, s, Nat.zero_le _, rfl, hs, hp⟩
    · obtain ⟨u, hnext, hu, ⟨hidle, hpos⟩ | hlt⟩ := hstep s hs hp
      · exact ⟨1, u, hpos, ⟨u, hnext, rfl⟩, hu, hidle⟩
      · obtain ⟨n, t, hn, hruns, ht, hidle⟩ := ih _ hlt hu rfl
        exact ⟨n + 1, t, by omega, ⟨u, hnext, hruns⟩, ht, hidle⟩

/-! ### How many steps are left -/

/-- R224: the steps the current quadruple takes at most, by the phase and the byte being counted up. -/
def stepsInQuadruple (s : State) : Nat :=
  match s.phase with
  | .idle | .adv => 0
  | .exec => 1
  | .vK5 => 256 - s.k5v.toNat
  | .vS3 => 257
  | .vS2 => 258
  | .vS1 => 259
  | .pK5 => 515 - s.k5.toNat
  | .pK4 => 516
  | .pK3 => 517
  | .pPair => 518

/-- R226: the engine steps a running command takes at most; 519 for each quadruple that a search still has to visit. -/
def stepsLeft (s : State) : Nat :=
  stepsInQuadruple s + if s.vonly then 0 else (0xFFFFFFFF - s.kg.toNat) * 519 + 1

theorem stepsInQuadruple_le (s : State) : stepsInQuadruple s ≤ 518 := by
  unfold stepsInQuadruple
  split <;> omega

/-- R226: within a quadruple every step brings the count down. -/
theorem stepsLeft_lt {s u : State} (hvonly : u.vonly = s.vonly) (hkg : u.kg = s.kg)
    (h : stepsInQuadruple u < stepsInQuadruple s) : stepsLeft u < stepsLeft s := by
  simp only [stepsLeft, hvonly, hkg]
  omega

theorem toNat_add_one_of_lt {b : Byte} (h : b < 0xFF#8) : (b + 1#8).toNat = b.toNat + 1 := by
  bv_omega

/-- R226: a step of the step table ends the command or brings the count down; ADV is a search's. -/
theorem ControlMove.stepsLeft {s u : State} (row : ControlMove s u) (hadv : s.phase = .adv → s.vonly = false) :
    (u.phase = .idle ∧ 0 < stepsLeft s) ∨ stepsLeft u < stepsLeft s := by
  have ends (h : 0 < stepsInQuadruple s ∨ s.vonly = false) : 0 < Machine.stepsLeft s := by
    rcases h with h | h
    · exact Nat.add_pos_left h _
    · simp [Machine.stepsLeft, h]
  have hk5 : s.k5.toNat < 256 := s.k5.isLt
  have hk5v : s.k5v.toNat < 256 := s.k5v.isLt
  cases row with
  | abort hp => exact .inl ⟨rfl, ends (.inl (by simp [stepsInQuadruple, hp]))⟩
  | verified hp | found hp | unverified hp =>
    exact .inl ⟨rfl, ends (.inl (by simp only [stepsInQuadruple, hp]; omega))⟩
  | exhausted hp => exact .inl ⟨rfl, ends (.inr (hadv hp))⟩
  | pair hp | k3 hp | k4 hp | candidate hp | noCandidate hp | s1 hp | s2 hp | s3 hp =>
    refine .inr (stepsLeft_lt rfl rfl ?_)
    simp only [stepsInQuadruple, hp]
    omega
  | nextK5 hp _ more =>
    refine .inr (stepsLeft_lt rfl rfl ?_)
    simp only [stepsInQuadruple, hp, toNat_add_one_of_lt more]
    omega
  | nextK5v hp _ more =>
    refine .inr (stepsLeft_lt rfl rfl ?_)
    simp only [stepsInQuadruple, hp, toNat_add_one_of_lt more]
    omega
  | discard hp =>
    refine .inr (stepsLeft_lt rfl rfl ?_)
    simp only [stepsInQuadruple, hp]
    omega
  | advance hp more =>
    right
    have hv : s.vonly = false := hadv hp
    have hle := stepsInQuadruple_le { s with kg := s.kg + 1#32, phase := advPhase (s.kg + 1#32) }
    have hlt : s.kg.toNat < 0xFFFFFFFF := by bv_omega
    simp only [Machine.stepsLeft, hv, toNat_add_one more]
    simp only [stepsInQuadruple, hp] at hle ⊢
    simp
    omega

/-! ### Every command ends -/

/-- R226: in a coherent state with no turn left the engine steps, and ends the command or has fewer steps left. -/
theorem Coherent.engine_step {s : State} (h : Coherent s) (turns : s.turns = []) (hp : s.phase ≠ .idle) :
    ∃ t, step s = .next t ∧ (Coherent t ∧ t.turns = []) ∧ (t.phase = .idle ∧ 0 < stepsLeft s ∨ stepsLeft t < stepsLeft s) := by
  by_cases he : s.phase = .exec
  · obtain ⟨i, latched, simple, passes⟩ := h.latched_exec he
    have move : Move s (finish (effectOf i s)) := .execute (.inl turns) he latched simple passes
    obtain ⟨_, _, _, _, _, _, _, _, _, _, heff⟩ := effectOf_frame i s
    have hturns : (effectOf i s).turns = [] := by rw [heff]; exact turns
    exact ⟨_, step_of_move move, ⟨(move.coherent h).endTurn, congrArg List.tail hturns⟩,
      .inl ⟨rfl, Nat.add_pos_left (by simp [stepsInQuadruple, he]) _⟩⟩
  · obtain ⟨i, latched⟩ := h.latched hp
    have row : ControlMove s (controllerStep s) := controllerStep_move hp he
    have hturns : (controllerStep s).turns = [] := by
      obtain ⟨_, _, _, _, _, _, _, _, _, _, _, _, _, _, _, _, _, hframe⟩ := row.frame
      rw [hframe]
      exact turns
    refine ⟨_, step_of_controlMove turns latched row, ⟨Move.coherent (.control (.inl turns) latched row) h, hturns⟩,
      row.stepsLeft fun hadv => ?_⟩
    obtain ⟨hvonly, -⟩ := h.searching (by simp [hadv])
    exact hvonly

/-- Settles O58: coherence with no turn left is an invariant that the engine runs to IDLE. -/
theorem everyCommandFinishes : Obligations.EveryCommandFinishes := fun s h turns => by
  obtain ⟨n, t, -, hruns, -, hidle⟩ :=
    runs_to_idle (P := fun u => Coherent u ∧ u.turns = []) (fun u ⟨hu, hturns⟩ hp => hu.engine_step hturns hp) ⟨h, turns⟩
  exact ⟨n, t, hruns, hidle⟩

end Sys2Proof.Machine
end

section
/-! The guesses of K5 and K5V (44_search.md R232, R233, R237): what a search or VERIFY checks on the scratch vectors is the zero
condition of the vectors rebuilt from V32, and counting a byte up finds the least that passes. -/

namespace Sys2Proof.Machine

/-! ### The scratch vectors are the rebuilt ones -/

/-- What the rebuilt vectors depend on is alike in two states: V32 and the table selection. -/
structure SameSources (s u : State) : Prop where
  v32 : u.v32 = s.v32
  tselA : u.tselA = s.tselA
  tselB : u.tselB = s.tselB

theorem SameSources.tableFor {s u : State} (h : SameSources s u) (x : RowSet) (j : Fin 4) :
    tableFor x j u = tableFor x j s := by
  cases x
  · simp only [Machine.tableFor, tselOf, h.tselA]
  · simp only [Machine.tableFor, tselOf, h.tselB]

theorem SameSources.passes_iff {s u : State} (h : SameSources s u) (x : RowSet) (q : Word) (k5 : Byte) :
    passes x u q k5 ↔ passes x s q k5 := by
  simp only [passes, rebuilt8, h.v32, h.tableFor]

/-- R225, R237: fresh scratch holds what is rebuilt for KG. -/
theorem freshAll.rebuilt {x : RowSet} {u : State} (h : freshAll x u) (r : Fin 3) :
    u.v8[slotAt x r] = rebuilt8 x u u.kg r := by
  obtain ⟨h24, h16, h8⟩ := h
  rw [h8, h16, h24]
  rfl

/-- R203, R237: with fresh scratch the zero condition is that of the rebuilt vectors. -/
theorem freshAll.zeroCondition_iff {x : RowSet} {s u : State} (h : freshAll x u) (hs : SameSources s u) (k5 : Byte) :
    zeroCondition x k5 u = true ↔ passes x s u.kg k5 := by
  simp only [Machine.zeroCondition_iff, h.rebuilt, ← hs.passes_iff]
  rfl

/-! ### Counting a guess up -/

/-- No byte below `k5` passes. -/
def noneBelow (x : RowSet) (s : State) (q : Word) (k5 : Byte) : Prop := ∀ j : Byte, j < k5 → ¬passes x s q j

theorem noneBelow_zero (x : RowSet) (s : State) (q : Word) : noneBelow x s q 0#8 := fun j hj => by
  bv_omega

theorem noneBelow.succ {x : RowSet} {s : State} {q : Word} {k5 : Byte} (h : noneBelow x s q k5) (hk5 : ¬passes x s q k5)
    (more : k5 < 0xFF#8) : noneBelow x s q (k5 + 1#8) := by
  intro j hj
  by_cases heq : j = k5
  · exact heq ▸ hk5
  · exact h j (by bv_omega)

/-- R237: after 0xFF no byte is left. -/
theorem noneBelow.none {x : RowSet} {s : State} {q : Word} (h : noneBelow x s q 0xFF#8) (hlast : ¬passes x s q 0xFF#8) :
    ¬∃ k5, passes x s q k5 := by
  rintro ⟨j, hj⟩
  by_cases heq : j = 0xFF#8
  · exact hlast (heq ▸ hj)
  · exact h j (by bv_omega) hj

end Sys2Proof.Machine
end

section
/-! VERIFY runs to its verdict (44_search.md R239). -/

namespace Sys2Proof.Machine

/-- R239: what a running VERIFY may have changed of the state `s` it was submitted in. -/
def VerifyFrame (s u : State) : Prop :=
  (∃ phase done validB v24 v16 v8 k5v result, u =
    { s with phase := phase, cmdLatch := 0x00000022#32, done := done, abortReq := false, vonly := true, validB := validB,
             v24 := v24, v16 := v16, v8 := v8, k5v := k5v, result := result, turns := [] }) ∧
  ∀ k : Slot, k.val < 3 → u.v24[k] = s.v24[k] ∧ u.v16[k] = s.v16[k] ∧ u.v8[k] = s.v8[k]

/-- R239: the answer of VERIFY on `s`, when the run of it ends in `u`. -/
def Verdict (s u : State) : Prop :=
  (verifies s s.kg ∧ u.result = 1#32 ∧ leastPass .b s s.kg u.k5v) ∨ (¬verifies s s.kg ∧ u.result = 0#32 ∧ u.k5v = 0xFF#8)

/-- R239: how far VERIFY has come in each phase. -/
def VerifyProgress (s u : State) : Prop :=
  match u.phase with
  | .vS1 => True
  | .vS2 => u.validB = ⟨true, false, false⟩
  | .vS3 => u.validB = ⟨true, true, false⟩
  | .vK5 => u.validB = ⟨true, true, true⟩ ∧ noneBelow .b s s.kg u.k5v
  | .idle => u.validB = ⟨true, true, true⟩ ∧ u.done = true ∧ Verdict s u
  | _ => False

/-- R239: VERIFY, submitted in `s`, is running in `u` or has just ended there. -/
structure VerifyRun (s u : State) : Prop where
  frame : VerifyFrame s u
  derived : Derived u
  progress : VerifyProgress s u

/-- The rows of set A are not those of a stage on set B. -/
theorem mapRows_b_of_lt (f : Memory → Memory) (inp out : Vector Memory 6) {k : Slot} (hk : k.val < 3) :
    (mapRows .b f inp out)[k] = out[k] := by
  refine mapRows_of_ne ?_ f inp out
  simp [setOfSlot, hk]

/-- R239: only the second-row phases occur while VERIFY runs. -/
theorem VerifyProgress.phase {s u : State} (h : VerifyProgress s u) :
    u.phase = .idle ∨ u.phase = .vS1 ∨ u.phase = .vS2 ∨ u.phase = .vS3 ∨ u.phase = .vK5 := by
  cases hp : u.phase with
  | idle | vS1 | vS2 | vS3 | vK5 => simp
  | exec | pPair | pK3 | pK4 | pK5 | adv => simp [VerifyProgress, hp] at h

theorem VerifyFrame.vonly {s u : State} (h : VerifyFrame s u) : u.vonly = true := by
  obtain ⟨⟨_, _, _, _, _, _, _, _, rfl⟩, -⟩ := h
  rfl

theorem VerifyFrame.kg {s u : State} (h : VerifyFrame s u) : u.kg = s.kg := by
  obtain ⟨⟨_, _, _, _, _, _, _, _, rfl⟩, -⟩ := h
  rfl

theorem VerifyFrame.turns {s u : State} (h : VerifyFrame s u) : u.turns = [] := by
  obtain ⟨⟨_, _, _, _, _, _, _, _, rfl⟩, -⟩ := h
  rfl

theorem VerifyFrame.latched {s u : State} (h : VerifyFrame s u) : decode u.cmdLatch = some .verify := by
  obtain ⟨⟨_, _, _, _, _, _, _, _, rfl⟩, -⟩ := h
  exact (by decide : decode 0x00000022#32 = some .verify)

theorem VerifyFrame.sources {s u : State} (h : VerifyFrame s u) : SameSources s u := by
  obtain ⟨⟨_, _, _, _, _, _, _, _, rfl⟩, -⟩ := h
  exact ⟨rfl, rfl, rfl⟩

/-- R54, R239: VERIFY works on set B. -/
theorem ControlMove.verifyFrame {s u v : State} (row : ControlMove u v) (h : VerifyFrame s u)
    (hp : u.phase = .vS1 ∨ u.phase = .vS2 ∨ u.phase = .vS3 ∨ u.phase = .vK5) : VerifyFrame s v := by
  obtain ⟨⟨_, _, _, _, _, _, _, _, rfl⟩, hrows⟩ := h
  cases row with
  | abort phase | pair phase | k3 phase | k4 phase | candidate phase | nextK5 phase | noCandidate phase | exhausted phase
  | advance phase => simp at phase hp; simp [phase] at hp
  | found _ _ only | discard _ _ _ only => cases only
  | verified | nextK5v | unverified => exact ⟨⟨_, _, _, _, _, _, _, _, rfl⟩, hrows⟩
  | s1 =>
    refine ⟨⟨_, _, _, _, _, _, _, _, rfl⟩, fun k hk => ?_⟩
    obtain ⟨h24, h16, h8⟩ := hrows k hk
    exact ⟨(mapRows_b_of_lt _ _ _ hk).trans h24, h16, h8⟩
  | s2 =>
    refine ⟨⟨_, _, _, _, _, _, _, _, rfl⟩, fun k hk => ?_⟩
    obtain ⟨h24, h16, h8⟩ := hrows k hk
    exact ⟨h24, (mapRows_b_of_lt _ _ _ hk).trans h16, h8⟩
  | s3 =>
    refine ⟨⟨_, _, _, _, _, _, _, _, rfl⟩, fun k hk => ?_⟩
    obtain ⟨h24, h16, h8⟩ := hrows k hk
    exact ⟨h24, h16, (mapRows_b_of_lt _ _ _ hk).trans h8⟩

/-- R225: in V_K5 the whole of set B is fresh. -/
theorem Derived.freshAll_b {u : State} (h : Derived u) (hp : u.phase = .vK5) : freshAll .b u := by
  simp only [Derived, hp] at h
  exact h.2

theorem ControlMove.verifyProgress {s u v : State} (row : ControlMove u v) (h : VerifyRun s u) : VerifyProgress s v := by
  obtain ⟨hframe, hderived, hprogress⟩ := h
  have zero (hp : u.phase = .vK5) : zeroCondition .b u.k5v u = true ↔ passes .b s s.kg u.k5v :=
    hframe.kg ▸ (hderived.freshAll_b hp).zeroCondition_iff hframe.sources u.k5v
  cases row with
  | abort hp | pair hp | k3 hp | k4 hp | candidate hp | nextK5 hp | noCandidate hp | exhausted hp | advance hp =>
    simp [VerifyProgress, hp] at hprogress
  | found _ _ only | discard _ _ _ only => rw [hframe.vonly] at only; cases only
  | s1 => exact (rfl : afterStage1 = _)
  | s2 hp =>
    simp only [VerifyProgress, hp] at hprogress
    exact congrArg afterStage2 hprogress
  | s3 hp =>
    simp only [VerifyProgress, hp] at hprogress
    exact And.intro (congrArg afterStage3 hprogress) (noneBelow_zero .b s s.kg)
  | verified hp hz =>
    simp only [VerifyProgress, hp] at hprogress
    obtain ⟨hvalid, hnone⟩ := hprogress
    have hpass := (zero hp).1 hz
    exact And.intro hvalid (And.intro rfl (.inl ⟨⟨_, hpass⟩, rfl, hpass, hnone⟩))
  | nextK5v hp hz more =>
    have hfails : ¬passes .b s s.kg u.k5v := fun hpass => by simp [(zero hp).2 hpass] at hz
    simp only [VerifyProgress, hp] at hprogress ⊢
    obtain ⟨hvalid, hnone⟩ := hprogress
    exact ⟨hvalid, hnone.succ hfails more⟩
  | unverified hp hz last =>
    have hfails : ¬passes .b s s.kg u.k5v := fun hpass => by simp [(zero hp).2 hpass] at hz
    simp only [VerifyProgress, hp] at hprogress
    obtain ⟨hvalid, hnone⟩ := hprogress
    rw [last] at hnone hfails
    exact And.intro hvalid (And.intro rfl (.inr ⟨hnone.none hfails, rfl, last⟩))

theorem ControlMove.verifyRun {s u v : State} (row : ControlMove u v) (h : VerifyRun s u) : VerifyRun s v where
  frame := row.verifyFrame h.frame (h.progress.phase.resolve_left row.running.1)
  derived := row.derived h.derived
  progress := row.verifyProgress h

/-- R239: a running VERIFY steps, and ends or has fewer steps left. -/
theorem VerifyRun.engine_step {s u : State} (h : VerifyRun s u) (hp : u.phase ≠ .idle) :
    ∃ v, step u = .next v ∧ VerifyRun s v ∧ (v.phase = .idle ∧ 0 < stepsLeft u ∨ stepsLeft v < stepsLeft u) := by
  have hphase := h.progress.phase.resolve_left hp
  have hexec : u.phase ≠ .exec := by rcases hphase with hp | hp | hp | hp <;> simp [hp]
  have hadv : u.phase ≠ .adv := by rcases hphase with hp | hp | hp | hp <;> simp [hp]
  have row : ControlMove u (controllerStep u) := controllerStep_move hp hexec
  exact ⟨_, step_of_controlMove h.frame.turns h.frame.latched row, row.verifyRun h, row.stepsLeft fun ha => absurd ha hadv⟩

/-- R239: the submission of VERIFY. -/
theorem verifyRun_of_accepted {s : State} (habort : s.abortReq = false) :
    VerifyRun s { Claims.accepted .verify 0x00000022#32 s with turns := [] } where
  frame :=
    ⟨⟨_, _, _, _, _, _, _, _, congrArg (fun req => ({ s with
        phase := .vS1, cmdLatch := 0x00000022#32, done := false, abortReq := req, vonly := true, turns := [] } : State))
        habort⟩, fun _ _ => ⟨rfl, rfl, rfl⟩⟩
  derived := fun hv => by cases hv
  progress := trivial

theorem admissible_verify {s : State} (h3 : s.vinit[3] = true) (h4 : s.vinit[4] = true) (h5 : s.vinit[5] = true) :
    Claims.admissible .verify s := by
  simp [Claims.admissible, Claims.slotError, Claims.slotArg, Claims.idError, Claims.uninitError, Claims.rangeError, h3, h4, h5]

/-- Settles O50: VERIFY is accepted, and its run is bounded by the steps its phases take; K5V counts up to the least k5. -/
theorem verifyRunsToItsVerdict : Obligations.VerifyRunsToItsVerdict := fun s hs hturns habort h3 h4 h5 => by
  have hstart := step_accepted hturns hs (i := .verify) (by decide) (admissible_verify h3 h4 h5)
  obtain ⟨n, t, hn, hruns, hrun, hend⟩ := runs_to_idle (P := VerifyRun s) (fun _ h hp => h.engine_step hp)
    (verifyRun_of_accepted habort)
  obtain ⟨⟨hframe, hrows⟩, -, hprogress⟩ := hrun
  simp only [VerifyProgress, hend] at hprogress
  obtain ⟨hvalid, hdone, hverdict⟩ := hprogress
  refine ⟨n + 1, t, by exact Nat.succ_le_succ hn, ⟨_, hstart, hruns⟩, ?_, hrows, hverdict⟩
  obtain ⟨_, _, _, _, _, _, _, _, rfl⟩ := hframe
  simp only at hend hdone hvalid
  simp only [hend, hdone, hvalid, hs, habort]

end Sys2Proof.Machine
end

section
/-! SEARCH and RESUME find the least verified quadruple or exhaust the space (44_search.md R231 to R238): an invariant of the run,
relative to the state `s` the command was submitted in, the first quadruple `q0` and the count `n0` that FPCNT starts with. -/

namespace Sys2Proof.Machine

/-! ### Counting discarded candidates -/

/-- R234: the candidates from `q0` on, below the number `n`, that do not verify. -/
def discarded (s : State) (q0 : Word) (n : Nat) : Set Word :=
  {q | q0 ≤ q ∧ q.toNat < n ∧ candidate s q ∧ ¬verifies s q}

theorem discarded_start (s : State) (q0 : Word) : discarded s q0 q0.toNat = ∅ := by
  ext q
  simp only [discarded, Set.mem_ofPred_eq, Set.mem_empty_iff_false, iff_false]
  rintro ⟨hle, hlt, -⟩
  exact absurd hlt (Nat.not_lt.2 hle)

/-- R234: a quadruple that is no candidate, or verifies, is not counted. -/
theorem discarded_succ_of_not {s : State} {q0 q : Word} (h : ¬(candidate s q ∧ ¬verifies s q)) :
    discarded s q0 (q.toNat + 1) = discarded s q0 q.toNat := by
  ext p
  simp only [discarded, Set.mem_ofPred_eq, Nat.lt_succ_iff_lt_or_eq, BitVec.toNat_inj]
  constructor
  · rintro ⟨hle, hlt | rfl, hp⟩
    · exact ⟨hle, hlt, hp⟩
    · exact absurd hp h
  · rintro ⟨hle, hlt, hp⟩
    exact ⟨hle, .inl hlt, hp⟩

/-- R234: a candidate that does not verify is counted once. -/
theorem ncard_discarded_succ {s : State} {q0 q : Word} (hq : q0 ≤ q) (hc : candidate s q) (hv : ¬verifies s q) :
    (discarded s q0 (q.toNat + 1)).ncard = (discarded s q0 q.toNat).ncard + 1 := by
  have hinsert : discarded s q0 (q.toNat + 1) = insert q (discarded s q0 q.toNat) := by
    ext p
    simp only [discarded, Set.mem_ofPred_eq, Set.mem_insert_iff, Nat.lt_succ_iff_lt_or_eq, BitVec.toNat_inj]
    constructor
    · rintro ⟨hle, hlt | rfl, hp⟩
      · exact .inr ⟨hle, hlt, hp⟩
      · exact .inl rfl
    · rintro (rfl | ⟨hle, hlt, hp⟩)
      · exact ⟨hq, .inr rfl, hc, hv⟩
      · exact ⟨hle, .inl hlt, hp⟩
  have hnot : q ∉ discarded s q0 q.toNat := fun ⟨_, hlt, _⟩ => Nat.lt_irrefl _ hlt
  rw [hinsert, Set.ncard_insert_of_notMem hnot]

/-- R45: saturation of the counter is saturation of the count. -/
theorem saturatingSucc_toNat (n : Word) : (saturatingSucc n).toNat = Claims.sat (n.toNat + 1) := by
  unfold saturatingSucc Claims.sat
  split
  next h => simp [h]
  next h =>
    have hlt : n.toNat + 1 ≤ 0xFFFFFFFF := by bv_omega
    rw [toNat_add_one h, Nat.min_eq_left hlt]

theorem saturatingSucc_of_sat {n : Word} {m : Nat} (h : n.toNat = Claims.sat m) :
    (saturatingSucc n).toNat = Claims.sat (m + 1) := by
  rw [saturatingSucc_toNat, h]
  unfold Claims.sat
  omega

/-! ### The invariant -/

/-- R230: what a running search never changes, and what the machine must be for it to go on. -/
structure SearchFrame (s u : State) : Prop where
  sources : SameSources s u
  err : u.err = s.err
  configId : u.configId = s.configId
  vonly : u.vonly = false
  turns : u.turns = []
  latched : ∃ i, decode u.cmdLatch = some i

/-- R231, R236: the search goes on at KG: nothing is found, asked or written, and no quadruple before KG is the answer. -/
structure SearchOpen (s : State) (q0 : Word) (u : State) : Prop where
  found : u.found = false
  aborted : u.aborted = false
  abortReq : u.abortReq = false
  key : u.key = s.key
  start : q0 ≤ u.kg
  earlier : ∀ q, q0 ≤ q → q < u.kg → ¬(candidate s q ∧ verifies s q)

/-- R234: FPCNT counts the discarded candidates below the number `n`. -/
def counted (s : State) (q0 : Word) (n0 n : Nat) (u : State) : Prop :=
  u.fpcnt.toNat = Claims.sat (n0 + (discarded s q0 n).ncard)

/-- R232: KG is a candidate, and K5C its least k5. -/
def AtCandidate (s u : State) : Prop := u.k5 = u.k5c ∧ leastPass .a s u.kg u.k5c

/-- R232 to R234: KG is done with and is not the answer. -/
structure AtDone (s u : State) : Prop where
  fails : ¬(candidate s u.kg ∧ verifies s u.kg)
  least : candidate s u.kg → leastPass .a s u.kg u.k5
  none : ¬candidate s u.kg → u.k5 = 0xFF#8

/-- R235, R237: the search has ended at the least quadruple that is a candidate and verifies. -/
def FoundLeast (s : State) (q0 : Word) (n0 : Nat) (t : State) : Prop :=
  t.found = true ∧ t.result = 1#32 ∧ q0 ≤ t.kg ∧ candidate s t.kg ∧ verifies s t.kg ∧
  (∀ q, q0 ≤ q → q < t.kg → ¬(candidate s q ∧ verifies s q)) ∧
  t.k5 = t.k5c ∧ leastPass .a s t.kg t.k5c ∧ leastPass .b s t.kg t.k5v ∧
  t.key = placeQuad t.kg s.configId s.key ∧
  t.fpcnt.toNat = Claims.sat (n0 + Set.ncard {q : Word | q0 ≤ q ∧ q < t.kg ∧ candidate s q ∧ ¬verifies s q})

/-- R236, R237: the search has ended after the last quadruple, with no answer. -/
def Exhausted (s : State) (q0 : Word) (n0 : Nat) (t : State) : Prop :=
  t.found = false ∧ t.result = 0#32 ∧ t.kg = 0xFFFFFFFF#32 ∧ t.key = s.key ∧
  (candidate s 0xFFFFFFFF#32 → leastPass .a s 0xFFFFFFFF#32 t.k5) ∧ (¬candidate s 0xFFFFFFFF#32 → t.k5 = 0xFF#8) ∧
  (∀ q, q0 ≤ q → ¬(candidate s q ∧ verifies s q)) ∧
  t.fpcnt.toNat = Claims.sat (n0 + Set.ncard {q : Word | q0 ≤ q ∧ candidate s q ∧ ¬verifies s q})

/-- R224: how far the search has come in each phase. -/
def SearchProgress (s : State) (q0 : Word) (n0 : Nat) (u : State) : Prop :=
  match u.phase with
  | .exec => False
  | .pPair | .pK3 | .pK4 => SearchOpen s q0 u ∧ counted s q0 n0 u.kg.toNat u
  | .pK5 => SearchOpen s q0 u ∧ counted s q0 n0 u.kg.toNat u ∧ noneBelow .a s u.kg u.k5
  | .vS1 | .vS2 | .vS3 => SearchOpen s q0 u ∧ counted s q0 n0 u.kg.toNat u ∧ AtCandidate s u
  | .vK5 => SearchOpen s q0 u ∧ counted s q0 n0 u.kg.toNat u ∧ AtCandidate s u ∧ noneBelow .b s u.kg u.k5v
  | .adv => SearchOpen s q0 u ∧ counted s q0 n0 (u.kg.toNat + 1) u ∧ AtDone s u
  | .idle => u.done = true ∧ u.aborted = false ∧ (FoundLeast s q0 n0 u ∨ Exhausted s q0 n0 u)

/-- R230, R238: a search submitted in `s` is running in `u` or has just ended there. -/
structure SearchRun (s : State) (q0 : Word) (n0 : Nat) (u : State) : Prop where
  frame : SearchFrame s u
  derived : Derived u
  progress : SearchProgress s q0 n0 u

/-! ### Every row of the step table keeps it -/

theorem ControlMove.searchFrame {s u v : State} (row : ControlMove u v) (h : SearchFrame s u) : SearchFrame s v := by
  obtain ⟨_, _, _, _, _, _, _, _, _, _, _, _, _, _, _, _, _, rfl⟩ := row.frame
  obtain ⟨⟨hv32, hta, htb⟩, herr, hid, hvonly, hturns, hlatched⟩ := h
  exact ⟨⟨hv32, hta, htb⟩, herr, hid, hvonly, hturns, hlatched⟩

/-- The search goes on at KG while the fields it speaks of stay. -/
theorem SearchOpen.congr {s u v : State} {q0 : Word} (h : SearchOpen s q0 u) (hfound : v.found = u.found)
    (haborted : v.aborted = u.aborted) (hreq : v.abortReq = u.abortReq) (hkey : v.key = u.key) (hkg : v.kg = u.kg) :
    SearchOpen s q0 v := by
  obtain ⟨h1, h2, h3, h4, h5, h6⟩ := h
  exact ⟨hfound ▸ h1, haborted ▸ h2, hreq ▸ h3, hkey ▸ h4, hkg ▸ h5, hkg ▸ h6⟩

/-- R225: in P_K5 the whole of set A is fresh. -/
theorem Derived.freshAll_a {u : State} (h : Derived u) (hp : u.phase = .pK5) : freshAll .a u := by
  simpa only [Derived, hp] using h

/-- R231: below the next quadruple lie those below KG, and KG. -/
theorem lt_add_one_iff {p q : Word} (h : q ≠ 0xFFFFFFFF#32) : p < q + 1#32 ↔ p < q ∨ p = q := by
  bv_omega

theorem ControlMove.searchProgress {s u v : State} {q0 : Word} {n0 : Nat} (row : ControlMove u v)
    (h : SearchRun s q0 n0 u) : SearchProgress s q0 n0 v := by
  obtain ⟨hframe, hderived, hprogress⟩ := h
  have zeroA (hp : u.phase = .pK5) := (hderived.freshAll_a hp).zeroCondition_iff hframe.sources u.k5
  have zeroB (hp : u.phase = .vK5) := (hderived.freshAll_b hp).zeroCondition_iff hframe.sources u.k5v
  cases row with
  | verified _ _ only | unverified _ _ _ only => rw [hframe.vonly] at only; cases only
  | abort hp req =>
    simp only [SearchProgress, hp] at hprogress
    obtain ⟨hopen, -⟩ := hprogress
    rw [hopen.abortReq] at req
    cases req
  | pair hp | k3 hp =>
    simp only [SearchProgress, hp] at hprogress
    obtain ⟨hopen, hcount⟩ := hprogress
    exact And.intro (hopen.congr rfl rfl rfl rfl rfl) hcount
  | k4 hp =>
    simp only [SearchProgress, hp] at hprogress
    obtain ⟨hopen, hcount⟩ := hprogress
    exact And.intro (hopen.congr rfl rfl rfl rfl rfl) (And.intro hcount (noneBelow_zero .a s u.kg))
  | candidate hp hz =>
    simp only [SearchProgress, hp] at hprogress
    obtain ⟨hopen, hcount, hnone⟩ := hprogress
    exact And.intro (hopen.congr rfl rfl rfl rfl rfl) (And.intro hcount ⟨rfl, (zeroA hp).1 hz, hnone⟩)
  | nextK5 hp hz more =>
    have hfails : ¬passes .a s u.kg u.k5 := fun hpass => by simp [(zeroA hp).2 hpass] at hz
    simp only [SearchProgress, hp] at hprogress ⊢
    obtain ⟨hopen, hcount, hnone⟩ := hprogress
    exact ⟨hopen.congr rfl rfl rfl rfl rfl, hcount, hnone.succ hfails more⟩
  | noCandidate hp hz last =>
    have hfails : ¬passes .a s u.kg u.k5 := fun hpass => by simp [(zeroA hp).2 hpass] at hz
    simp only [SearchProgress, hp] at hprogress
    obtain ⟨hopen, hcount, hnone⟩ := hprogress
    rw [last] at hnone hfails
    have hnot : ¬Machine.candidate s u.kg := hnone.none hfails
    refine And.intro (hopen.congr rfl rfl rfl rfl rfl) (And.intro ?_ ⟨fun h => hnot h.1, fun h => absurd h hnot, fun _ => last⟩)
    rw [counted, discarded_succ_of_not fun h => hnot h.1]
    exact hcount
  | s1 hp | s2 hp =>
    simp only [SearchProgress, hp] at hprogress
    obtain ⟨hopen, hcount, hcand⟩ := hprogress
    exact And.intro (hopen.congr rfl rfl rfl rfl rfl) (And.intro hcount hcand)
  | s3 hp =>
    simp only [SearchProgress, hp] at hprogress
    obtain ⟨hopen, hcount, hcand⟩ := hprogress
    exact And.intro (hopen.congr rfl rfl rfl rfl rfl) (And.intro hcount (And.intro hcand (noneBelow_zero .b s u.kg)))
  | found hp hz =>
    have hpass : passes .b s u.kg u.k5v := (zeroB hp).1 hz
    simp only [SearchProgress, hp] at hprogress
    obtain ⟨hopen, hcount, ⟨hk5, hleast⟩, hnone⟩ := hprogress
    have hkey : placeQuad u.kg u.configId u.key = placeQuad u.kg s.configId s.key := by rw [hframe.configId, hopen.key]
    exact And.intro rfl (And.intro hopen.aborted (.inl ⟨rfl, rfl, hopen.start, ⟨_, hleast.1⟩, ⟨_, hpass⟩, hopen.earlier, hk5,
      hleast, ⟨hpass, hnone⟩, hkey, hcount⟩))
  | nextK5v hp hz more =>
    have hfails : ¬passes .b s u.kg u.k5v := fun hpass => by simp [(zeroB hp).2 hpass] at hz
    simp only [SearchProgress, hp] at hprogress ⊢
    obtain ⟨hopen, hcount, hcand, hnone⟩ := hprogress
    exact ⟨hopen.congr rfl rfl rfl rfl rfl, hcount, hcand, hnone.succ hfails more⟩
  | discard hp hz last =>
    have hfails : ¬passes .b s u.kg u.k5v := fun hpass => by simp [(zeroB hp).2 hpass] at hz
    simp only [SearchProgress, hp] at hprogress
    obtain ⟨hopen, hcount, ⟨hk5, hleast⟩, hnone⟩ := hprogress
    rw [last] at hnone hfails
    have hcand : Machine.candidate s u.kg := ⟨_, hleast.1⟩
    have hnot : ¬verifies s u.kg := hnone.none hfails
    refine And.intro (hopen.congr rfl rfl rfl rfl rfl) (And.intro ?_
      ⟨fun h => hnot h.2, fun _ => by rw [← hk5] at hleast; exact hleast, fun h => absurd hcand h⟩)
    rw [counted, ncard_discarded_succ hopen.start hcand hnot, ← Nat.add_assoc]
    exact saturatingSucc_of_sat hcount
  | exhausted hp last =>
    simp only [SearchProgress, hp] at hprogress
    obtain ⟨hopen, hcount, hfails, hleast, hnone⟩ := hprogress
    have hall (q : Word) (hq : q0 ≤ q) : ¬(Machine.candidate s q ∧ verifies s q) := by
      by_cases heq : q = u.kg
      · exact heq ▸ hfails
      · exact hopen.earlier q hq (by rw [last] at heq ⊢; bv_omega)
    have hset : discarded s q0 (u.kg.toNat + 1) = {q | q0 ≤ q ∧ Machine.candidate s q ∧ ¬verifies s q} := by
      ext q
      have hlt : q.toNat < u.kg.toNat + 1 := by rw [last]; exact q.isLt
      simp only [discarded, Set.mem_ofPred_eq, hlt, true_and]
    rw [counted, hset] at hcount
    rw [last] at hleast hnone
    exact And.intro rfl (And.intro hopen.aborted (.inr ⟨hopen.found, rfl, last, hopen.key, hleast, hnone, hall, hcount⟩))
  | advance hp more =>
    simp only [SearchProgress, hp] at hprogress
    obtain ⟨hopen, hcount, hfails, -⟩ := hprogress
    have hgoes : SearchOpen s q0 { u with kg := u.kg + 1#32, phase := advPhase (u.kg + 1#32) } ∧
        counted s q0 n0 (u.kg + 1#32).toNat { u with kg := u.kg + 1#32, phase := advPhase (u.kg + 1#32) } := by
      refine ⟨⟨hopen.found, hopen.aborted, hopen.abortReq, hopen.key, ?_, fun q hq hlt => ?_⟩, ?_⟩
      · have hstart := hopen.start
        show q0 ≤ u.kg + 1#32
        bv_omega
      · rcases (lt_add_one_iff more).1 hlt with hlt | rfl
        · exact hopen.earlier q hq hlt
        · exact hfails
      · rw [counted, toNat_add_one more]
        exact hcount
    rcases advPhase_cases (u.kg + 1#32) with ⟨-, hq⟩ | ⟨-, -, hq⟩ | ⟨-, -, hq⟩ <;> rw [hq] at hgoes ⊢ <;> exact hgoes

theorem ControlMove.searchRun {s u v : State} {q0 : Word} {n0 : Nat} (row : ControlMove u v) (h : SearchRun s q0 n0 u) :
    SearchRun s q0 n0 v where
  frame := row.searchFrame h.frame
  derived := row.derived h.derived
  progress := row.searchProgress h

/-- R226: a running search steps, and ends or has fewer steps left. -/
theorem SearchRun.engine_step {s u : State} {q0 : Word} {n0 : Nat} (h : SearchRun s q0 n0 u) (hp : u.phase ≠ .idle) :
    ∃ v, step u = .next v ∧ SearchRun s q0 n0 v ∧ (v.phase = .idle ∧ 0 < stepsLeft u ∨ stepsLeft v < stepsLeft u) := by
  have hexec : u.phase ≠ .exec := fun he => by
    have hprogress := h.progress
    simp only [SearchProgress, he] at hprogress
  obtain ⟨i, hlatched⟩ := h.frame.latched
  have row : ControlMove u (controllerStep u) := controllerStep_move hp hexec
  exact ⟨_, step_of_controlMove h.frame.turns hlatched row, row.searchRun h, row.stepsLeft fun _ => h.frame.vonly⟩

/-! ### The run -/

/-- R237: from `u` the engine runs to the outcome of the search submitted in `s`. -/
def SearchEnds (s : State) (q0 : Word) (n0 : Nat) (u : State) : Prop :=
  ∃ n t, Claims.runs n u t ∧ t.phase = .idle ∧ t.done = true ∧ t.aborted = false ∧ t.err = s.err ∧ t.v32 = s.v32 ∧
    (FoundLeast s q0 n0 t ∨ Exhausted s q0 n0 t)

theorem SearchRun.ends {s u : State} {q0 : Word} {n0 : Nat} (h : SearchRun s q0 n0 u) : SearchEnds s q0 n0 u := by
  obtain ⟨n, t, -, hruns, hrun, hend⟩ := runs_to_idle (P := SearchRun s q0 n0) (fun _ hu hp => hu.engine_step hp) h
  obtain ⟨hframe, -, hprogress⟩ := hrun
  simp only [SearchProgress, hend] at hprogress
  obtain ⟨hdone, haborted, hout⟩ := hprogress
  exact ⟨n, t, hruns, hend, hdone, haborted, hframe.err, hframe.sources.v32, hout⟩

theorem SearchEnds.of_step {s u v : State} {q0 : Word} {n0 : Nat} (hstep : step u = .next v) (h : SearchEnds s q0 n0 v) :
    SearchEnds s q0 n0 u := by
  obtain ⟨n, t, hruns, hend⟩ := h
  exact ⟨n + 1, t, ⟨v, hstep, hruns⟩, hend⟩

/-- R221, R230, R238: the run starts in P_PAIR at `q0`, with nothing discarded. -/
theorem searchRun_start {s u : State} {q0 : Word} {n0 : Nat} (hframe : SearchFrame s u) (hp : u.phase = .pPair)
    (hfound : u.found = false) (haborted : u.aborted = false) (hreq : u.abortReq = false) (hkey : u.key = s.key)
    (hkg : u.kg = q0) (hfpcnt : u.fpcnt.toNat = n0) : SearchRun s q0 n0 u where
  frame := hframe
  derived := by simp [Derived, hp]
  progress := by
    simp only [SearchProgress, hp]
    refine ⟨⟨hfound, haborted, hreq, hkey, hkg ▸ Nat.le_refl _, fun q hle hlt => ?_⟩, ?_⟩
    · rw [hkg] at hlt
      exact absurd hlt (Nat.not_lt.2 hle)
    · have hlt : n0 ≤ 0xFFFFFFFF := by have := u.fpcnt.isLt; omega
      rw [counted, hkg, discarded_start, hfpcnt, Set.ncard_empty, Claims.sat]
      omega

theorem admissible_search {s : State} (hid : Claims.legalId s.configId) (hinit : ∀ k : Slot, s.vinit[k] = true) {i : Instr}
    (hi : i = .search ∨ i = .resume) : Claims.admissible i s := by
  have hall : ¬∃ k : Slot, s.vinit[k] = false := fun ⟨k, hk⟩ => by simp [hinit k] at hk
  rcases hi with rfl | rfl <;> exact ⟨nofun, not_not.2 hid, hall, id⟩

/-- Settles O51: each of the two is accepted into the run, and the run keeps its invariant to its end. -/
theorem searchFindsTheLeastVerifiedQuadruple : Obligations.SearchFindsTheLeastVerifiedQuadruple := by
  intro s w q0 n0 hs hturns hreq hw hid hinit
  have start {i : Instr} (hi : i = .search ∨ i = .resume) (word : decode w = some i)
      (hrun : SearchRun s q0 n0 { Claims.accepted i w s with turns := [] }) : SearchEnds s q0 n0 s :=
    hrun.ends.of_step (step_accepted hturns hs word (admissible_search hid hinit hi))
  rcases hw with ⟨rfl, rfl, rfl⟩ | ⟨rfl, rfl, rfl⟩
  · have word : decode 0x00000020#32 = some .search := by decide
    exact start (.inl rfl) word
      (searchRun_start ⟨⟨rfl, rfl, rfl⟩, rfl, rfl, rfl, rfl, _, word⟩ rfl rfl rfl hreq rfl rfl rfl)
  · have word : decode 0x00000021#32 = some .resume := by decide
    exact start (.inr rfl) word
      (searchRun_start ⟨⟨rfl, rfl, rfl⟩, rfl, rfl, rfl, rfl, _, word⟩ rfl rfl rfl hreq rfl rfl rfl)

end Sys2Proof.Machine
end

section
/-! The contents of uncovered vectors are not observable (10_state.md R56, R57, R62): a two-run argument, move by move. -/

namespace Sys2Proof.Machine

/-! ### States that differ in uncovered vectors only -/

/-- R62: `Claims.sameButUncovered`, its clauses named. -/
structure Alike (s t : State) : Prop where
  vectors : ∃ v32 v24 v16 v8, t = { s with v32 := v32, v24 := v24, v16 := v16, v8 := v8 }
  v32 : ∀ k : Slot, s.vinit[k] = true → t.v32[k] = s.v32[k]
  v24 : ∀ k : Slot, (validOf (setOfSlot k) s).sv24 = true → t.v24[k] = s.v24[k]
  v16 : ∀ k : Slot, (validOf (setOfSlot k) s).sv16 = true → t.v16[k] = s.v16[k]
  v8 : ∀ k : Slot, (validOf (setOfSlot k) s).sv8 = true → t.v8[k] = s.v8[k]

theorem alike_iff {s t : State} : Alike s t ↔ Claims.sameButUncovered s t := by
  constructor
  · rintro ⟨⟨_, _, _, _, rfl⟩, h32, h24, h16, h8⟩
    exact ⟨rfl, fun k => ⟨h32 k, h24 k, h16 k, h8 k⟩⟩
  · rintro ⟨hrec, h⟩
    exact ⟨⟨_, _, _, _, hrec⟩, fun k => (h k).1, fun k => (h k).2.1, fun k => (h k).2.2.1, fun k => (h k).2.2.2⟩

/-- An update of both states that leaves the vectors, and what covers them. -/
theorem Alike.update {s t u v : State} (h : Alike s t) (hinit : u.vinit = s.vinit) (hA : u.validA = s.validA)
    (hB : u.validB = s.validB) (h32 : u.v32 = s.v32) (h24 : u.v24 = s.v24) (h16 : u.v16 = s.v16) (h8 : u.v8 = s.v8)
    (hv : v = { u with v32 := t.v32, v24 := t.v24, v16 := t.v16, v8 := t.v8 }) : Alike u v := by
  subst hv
  have hvalid (x : RowSet) : validOf x u = validOf x s := by cases x <;> assumption
  refine ⟨⟨_, _, _, _, rfl⟩, ?_, ?_, ?_, ?_⟩ <;> intro k
  · simpa only [hinit, h32] using h.v32 k
  · simpa only [hvalid, h24] using h.v24 k
  · simpa only [hvalid, h16] using h.v16 k
  · simpa only [hvalid, h8] using h.v8 k

/-- R35: no register shows a vector. -/
theorem Alike.hostRead {s t : State} (h : Alike s t) (a : BitVec 5) : hostRead a t = hostRead a s := by
  obtain ⟨_, _, _, _, rfl⟩ := h.vectors
  unfold Machine.hostRead
  cases regAt a <;> rfl

theorem Alike.irq {s t : State} (h : Alike s t) : irq t = irq s := by
  obtain ⟨_, _, _, _, rfl⟩ := h.vectors
  rfl

theorem Alike.acceptanceFailing {s t : State} (h : Alike s t) (i : Instr) :
    acceptanceFailing i t = acceptanceFailing i s := by
  obtain ⟨_, _, _, _, rfl⟩ := h.vectors
  exact acceptanceFailing_congr i rfl rfl rfl rfl rfl

/-- R57: the zero condition reads width-8 vectors that are covered. -/
theorem Alike.zeroCondition {s t : State} (h : Alike s t) {x : RowSet} (hx : (validOf x s).sv8 = true) (k5 : Byte) :
    zeroCondition x k5 t = zeroCondition x k5 s := by
  have hrow (r : Fin 3) : rowZero x k5 t r = rowZero x k5 s r := by
    rw [rowZero, rowZero, h.v8 _ (by rwa [setOfSlot_slotAt])]
  simp only [Machine.zeroCondition, hrow]

/-! ### What a command writes it computes from covered vectors -/

/-- R57: an update of both states that writes the valid bits of a set: alike are the rows of the set that the new bits cover, and
those of the other set that its bits cover. -/
theorem Alike.setValid {u v : State} {x : RowSet} {w : Valid}
    (vectors : ∃ v32 v24 v16 v8, v = { u with v32 := v32, v24 := v24, v16 := v16, v8 := v8 })
    (h32 : ∀ k : Slot, u.vinit[k] = true → v.v32[k] = u.v32[k])
    (inside : ∀ k : Slot, setOfSlot k = x → (w.sv24 = true → v.v24[k] = u.v24[k]) ∧
      (w.sv16 = true → v.v16[k] = u.v16[k]) ∧ (w.sv8 = true → v.v8[k] = u.v8[k]))
    (outside : ∀ k : Slot, setOfSlot k ≠ x → ((validOf (setOfSlot k) u).sv24 = true → v.v24[k] = u.v24[k]) ∧
      ((validOf (setOfSlot k) u).sv16 = true → v.v16[k] = u.v16[k]) ∧
      ((validOf (setOfSlot k) u).sv8 = true → v.v8[k] = u.v8[k])) :
    Alike (setValid x w u) (setValid x w v) := by
  have covered (k : Slot) : ((validOf (setOfSlot k) (Machine.setValid x w u)).sv24 = true → v.v24[k] = u.v24[k]) ∧
      ((validOf (setOfSlot k) (Machine.setValid x w u)).sv16 = true → v.v16[k] = u.v16[k]) ∧
      ((validOf (setOfSlot k) (Machine.setValid x w u)).sv8 = true → v.v8[k] = u.v8[k]) := by
    by_cases hk : setOfSlot k = x
    · rw [hk, validOf_setValid_self]
      exact inside k hk
    · rw [validOf_setValid_of_ne hk]
      exact outside k hk
  refine ⟨?_, ?_, ?_, ?_, ?_⟩
  · obtain ⟨_, _, _, _, rfl⟩ := vectors
    cases x <;> exact ⟨_, _, _, _, rfl⟩
  · simpa using h32
  · simpa using fun k => (covered k).1
  · simpa using fun k => (covered k).2.1
  · simpa using fun k => (covered k).2.2

/-- R57: stage 1 reads initialised slots and covers what it writes. -/
theorem Alike.stage1 {s t : State} (h : Alike s t) {x : RowSet} (hx : setInit x s = true) :
    Alike (stage1 x s) (stage1 x t) := by
  obtain ⟨_, _, _, _, rfl⟩ := h.vectors
  refine .setValid ⟨_, _, _, _, rfl⟩ h.v32 (fun k hk => ⟨fun _ => ?_, nofun, nofun⟩) fun k hk =>
    ⟨fun h24 => ?_, h.v16 k, h.v8 k⟩
  · rw [mapRows_of_eq hk, mapRows_of_eq hk, h.v32 k ((setInit_iff x s).1 hx k hk)]
    rfl
  · rw [mapRows_of_ne hk, mapRows_of_ne hk]
    exact h.v24 k h24

/-- R57: stage 2 reads covered width-24 vectors and covers what it writes. -/
theorem Alike.stage2 {s t : State} (h : Alike s t) {x : RowSet} (hx : (validOf x s).sv24 = true) :
    Alike (stage2 x s) (stage2 x t) := by
  obtain ⟨_, _, _, _, rfl⟩ := h.vectors
  have h24 {k : Slot} (hk : setOfSlot k = x) := h.v24 k (by rwa [hk])
  refine .setValid ⟨_, _, _, _, rfl⟩ h.v32 (fun k hk => ⟨fun _ => h24 hk, fun _ => ?_, nofun⟩) fun k hk =>
    ⟨h.v24 k, fun h16 => ?_, h.v8 k⟩
  · rw [mapRows_of_eq hk, mapRows_of_eq hk, h24 hk]
    rfl
  · rw [mapRows_of_ne hk, mapRows_of_ne hk]
    exact h.v16 k h16

/-- R57: stage 3 reads covered width-16 vectors and covers what it writes. -/
theorem Alike.stage3 {s t : State} (h : Alike s t) {x : RowSet} (hx : (validOf x s).sv16 = true) :
    Alike (stage3 x s) (stage3 x t) := by
  obtain ⟨_, _, _, _, rfl⟩ := h.vectors
  have h16 {k : Slot} (hk : setOfSlot k = x) := h.v16 k (by rwa [hk])
  have h24 {k : Slot} (hk : setOfSlot k = x) (hv : (validOf x s).sv24 = true) := h.v24 k (by rwa [hk])
  refine .setValid ⟨_, _, _, _, rfl⟩ h.v32 (fun k hk => ⟨h24 hk, fun _ => h16 hk, fun _ => ?_⟩) fun k hk =>
    ⟨h.v24 k, h.v16 k, fun h8 => ?_⟩
  · rw [mapRows_of_eq hk, mapRows_of_eq hk, h16 hk]
    rfl
  · rw [mapRows_of_ne hk, mapRows_of_ne hk]
    exact h.v8 k h8

/-- R56: VCLR covers what it writes. -/
theorem Alike.clearSlot {s t : State} (h : Alike s t) (k : Slot) : Alike (clearSlot k s) (clearSlot k t) := by
  obtain ⟨_, _, _, _, rfl⟩ := h.vectors
  refine .setValid ⟨_, _, _, _, rfl⟩ (fun j => ?_) (fun _ _ => ⟨nofun, nofun, nofun⟩) fun j _ => ⟨h.v24 j, h.v16 j, h.v8 j⟩
  simp only [Fin.getElem_fin, Vector.getElem_set]
  split
  · exact fun _ => rfl
  · exact h.v32 j

/-- R56: VFLIP reads an initialised slot. -/
theorem Alike.flipSlot {s t : State} (h : Alike s t) {k : Slot} (hk : s.vinit[k] = true) :
    Alike (flipSlot k s) (flipSlot k t) := by
  obtain ⟨_, _, _, _, rfl⟩ := h.vectors
  refine .setValid ⟨_, _, _, _, rfl⟩ (fun j hj => ?_) (fun _ _ => ⟨nofun, nofun, nofun⟩) fun j _ => ⟨h.v24 j, h.v16 j, h.v8 j⟩
  rw [h.v32 k hk]
  simp only [Fin.getElem_fin, Vector.getElem_set]
  split
  · rfl
  · exact h.v32 j hj

/-- Commands that answer in RESULT answer alike. -/
theorem Alike.setResult {s t : State} (h : Alike s t) {r q : Word} (hr : q = r) :
    Alike { s with result := r } { t with result := q } := by
  subst hr
  refine h.update rfl rfl rfl rfl rfl rfl rfl ?_
  obtain ⟨_, _, _, _, rfl⟩ := h.vectors
  rfl

/-- R271: the check of VINIT on the slot ARG names. -/
theorem argInit_of_slot {arg : BitVec 3} {k : Slot} (hk : slotOf arg = some k) (s : State) : argInit arg s = s.vinit[k] := by
  simp only [argInit, hk]

/-- R271: the check of a valid bit for the slot ARG names. -/
theorem argValid_of_slot {arg : BitVec 3} {k : Slot} (hk : slotOf arg = some k) (w : Scratch) (s : State) :
    argValid w arg s = validAt w (validOf (setOfSlot k) s) := by
  simp only [argValid, hk]

theorem Alike.scratchOf {s t : State} (h : Alike s t) {w : Scratch} {k : Slot}
    (hw : validAt w (validOf (setOfSlot k) s) = true) : (scratchOf w t)[k] = (scratchOf w s)[k] := by
  cases w
  · exact h.v24 k hw
  · exact h.v16 k hw
  · exact h.v8 k hw

/-- A command on a slot keeps the likeness, if it does on the slot ARG names. -/
theorem Alike.onSlot {s t : State} (h : Alike s t) {arg : BitVec 3} {f : Slot → State → State}
    (hf : ∀ k, slotOf arg = some k → Alike (f k s) (f k t)) : Alike (onSlot arg f s) (onSlot arg f t) := by
  unfold Machine.onSlot
  split
  next k hk => exact hf k hk
  next => exact h

/-- R166: STEST reads a covered vector. -/
theorem Alike.testScratch {s t : State} (h : Alike s t) {w : Scratch} {arg : BitVec 3}
    (passes : stestFailing w arg s = none) :
    Alike (Machine.onSlot arg (Machine.testScratch w) s) (Machine.onSlot arg (Machine.testScratch w) t) :=
  h.onSlot fun k hk => by
    have hw : validAt w (validOf (setOfSlot k) s) = true := by
      rw [stestFailing, firstFailing_eq_none_iff] at passes
      simpa [argValid_of_slot hk] using passes (!argValid w arg s, .uninit) (by simp)
    refine h.setResult ?_
    rw [h.scratchOf hw]
    obtain ⟨_, _, _, _, rfl⟩ := h.vectors
    rfl

/-- R223: a command whose checks pass reads covered vectors only. -/
theorem Alike.effectOf {s t : State} (h : Alike s t) {i : Instr} (passes : Machine.acceptanceFailing i s = none) :
    Alike (effectOf i s) (effectOf i t) := by
  cases i with
  | vclr arg => exact h.onSlot fun k _ => h.clearSlot k
  | vflip arg =>
    refine h.onSlot fun k hk => h.flipSlot ?_
    rw [Machine.acceptanceFailing, vflipFailing, firstFailing_eq_none_iff] at passes
    simpa [argInit_of_slot hk] using passes (!argInit arg s, .uninit) (by simp)
  | vtest arg =>
    refine h.onSlot fun k hk => h.setResult ?_
    rw [Machine.acceptanceFailing, vtestFailing, firstFailing_eq_none_iff] at passes
    have hinit : s.vinit[k] = true := by simpa [argInit_of_slot hk] using passes (!argInit arg s, .uninit) (by simp)
    rw [h.v32 k hinit]
    obtain ⟨_, _, _, _, rfl⟩ := h.vectors
    rfl
  | stest24 arg | stest16 arg | stest8 arg => exact h.testScratch passes
  | red1 x => exact h.stage1 (setInit_of_red1 passes)
  | red2 x => exact h.stage2 (sv24_of_red2 passes)
  | red3 x => exact h.stage3 (sv16_of_red3 passes)
  | tsum arg =>
    refine h.onSlot fun k hk => h.setResult ?_
    rw [Machine.acceptanceFailing, tsumFailing, firstFailing_eq_none_iff] at passes
    have hvalid : validAt .w8 (validOf (setOfSlot k) s) = true := by
      simpa [argValid_of_slot hk] using passes (!argValid .w8 arg s, .uninit) (by simp)
    rw [h.v8 k hvalid]
    obtain ⟨_, _, _, _, rfl⟩ := h.vectors
    rfl
  | zchk x =>
    refine h.setResult ?_
    rw [Machine.acceptanceFailing, zchkFailing, firstFailing_eq_none_iff] at passes
    have hvalid : (validOf x s).sv8 = true := by simpa using passes (!(validOf x s).sv8, .uninit) (by simp)
    rw [h.zeroCondition hvalid]
    obtain ⟨_, _, _, _, rfl⟩ := h.vectors
    rfl
  | nop | extract _ | place | search | resume | verify | abort =>
    refine h.update rfl rfl rfl rfl rfl rfl rfl ?_
    obtain ⟨_, _, _, _, rfl⟩ := h.vectors
    rfl

/-! ### Every move keeps the likeness -/

theorem ControlMove.alike {s t u : State} (row : ControlMove s u) (hs : Coherent s) (h : Alike s t) :
    ∃ v, ControlMove t v ∧ Alike u v := by
  have zeroA (hp : s.phase = .pK5) := h.zeroCondition (x := .a) (hs.validA_sv8 (.inl hp)) s.k5
  have zeroB (hp : s.phase = .vK5) := h.zeroCondition (x := .b) (hs.validB_sv8 hp) s.k5v
  have hstage1 (hp : s.phase = .pPair) := h.stage1 (hs.searching (.inl hp)).2.2.1
  have hstage1b (hp : s.phase = .vS1) := h.stage1 (hs.verifying (.inl hp)).setInit_b
  have hstage2 (hp : s.phase = .pK3) := h.stage2 (x := .a) (hs.validA_sv24 hp)
  have hstage2b (hp : s.phase = .vS2) := h.stage2 (x := .b) (hs.validB_sv24 hp)
  have hstage3 (hp : s.phase = .pK4) := h.stage3 (x := .a) (hs.validA_sv16 hp)
  have hstage3b (hp : s.phase = .vS3) := h.stage3 (x := .b) (hs.validB_sv16 hp)
  obtain ⟨_, _, _, _, rfl⟩ := h.vectors
  cases row with
  | abort hp req => exact ⟨_, .abort hp req, h.update rfl rfl rfl rfl rfl rfl rfl rfl⟩
  | pair hp req => exact ⟨_, .pair hp req, (hstage1 hp).update rfl rfl rfl rfl rfl rfl rfl rfl⟩
  | k3 hp => exact ⟨_, .k3 hp, (hstage2 hp).update rfl rfl rfl rfl rfl rfl rfl rfl⟩
  | k4 hp => exact ⟨_, .k4 hp, (hstage3 hp).update rfl rfl rfl rfl rfl rfl rfl rfl⟩
  | candidate hp zero =>
    exact ⟨_, .candidate hp ((zeroA hp).trans zero), h.update rfl rfl rfl rfl rfl rfl rfl rfl⟩
  | nextK5 hp zero more =>
    exact ⟨_, .nextK5 hp ((zeroA hp).trans zero) more, h.update rfl rfl rfl rfl rfl rfl rfl rfl⟩
  | noCandidate hp zero last =>
    exact ⟨_, .noCandidate hp ((zeroA hp).trans zero) last, h.update rfl rfl rfl rfl rfl rfl rfl rfl⟩
  | s1 hp => exact ⟨_, .s1 hp, (hstage1b hp).update rfl rfl rfl rfl rfl rfl rfl rfl⟩
  | s2 hp => exact ⟨_, .s2 hp, (hstage2b hp).update rfl rfl rfl rfl rfl rfl rfl rfl⟩
  | s3 hp => exact ⟨_, .s3 hp, (hstage3b hp).update rfl rfl rfl rfl rfl rfl rfl rfl⟩
  | verified hp zero only =>
    exact ⟨_, .verified hp ((zeroB hp).trans zero) only, h.update rfl rfl rfl rfl rfl rfl rfl rfl⟩
  | found hp zero only =>
    exact ⟨_, .found hp ((zeroB hp).trans zero) only, h.update rfl rfl rfl rfl rfl rfl rfl rfl⟩
  | nextK5v hp zero more =>
    exact ⟨_, .nextK5v hp ((zeroB hp).trans zero) more, h.update rfl rfl rfl rfl rfl rfl rfl rfl⟩
  | unverified hp zero last only =>
    exact ⟨_, .unverified hp ((zeroB hp).trans zero) last only, h.update rfl rfl rfl rfl rfl rfl rfl rfl⟩
  | discard hp zero last only =>
    exact ⟨_, .discard hp ((zeroB hp).trans zero) last only, h.update rfl rfl rfl rfl rfl rfl rfl rfl⟩
  | exhausted hp last => exact ⟨_, .exhausted hp last, h.update rfl rfl rfl rfl rfl rfl rfl rfl⟩
  | advance hp more => exact ⟨_, .advance hp more, h.update rfl rfl rfl rfl rfl rfl rfl rfl⟩

theorem Alike.raise {s t : State} (h : Alike s t) (e : CmdError) (w : Word) : Alike (raise e w s) (raise e w t) := by
  refine h.update (raise_vinit ..) (raise_validA ..) (raise_validB ..) (raise_v32 ..) (raise_v24 ..) (raise_v16 ..)
    (raise_v8 ..) ?_
  obtain ⟨_, _, _, _, rfl⟩ := h.vectors
  unfold Machine.raise
  dsimp only
  split <;> rfl

theorem Alike.statusWrite {s t : State} (h : Alike s t) (d : Word) : Alike (statusWrite d s) (statusWrite d t) := by
  obtain ⟨_, _, _, _, rfl⟩ := h.vectors
  unfold Machine.statusWrite
  dsimp only
  split <;> split <;> exact h.update rfl rfl rfl rfl rfl rfl rfl rfl

theorem Alike.idleWrite {s t : State} (h : Alike s t) (a : BitVec 5) {f : State → State} (hf : Alike (f s) (f t)) :
    Alike (idleWrite a f s) (idleWrite a f t) := by
  have hbusy : busy t = busy s := by
    obtain ⟨_, _, _, _, rfl⟩ := h.vectors
    rfl
  unfold Machine.idleWrite
  rw [hbusy]
  split
  · exact h.raise _ _
  · exact hf

/-- R31 to R48: a host write to a register neither reads nor writes a vector. -/
theorem Alike.hostWrite {s t : State} (h : Alike s t) (a : BitVec 5) (d : Word) :
    Alike (hostWrite a d s) (hostWrite a d t) := by
  unfold Machine.hostWrite
  cases regAt a with
  | cmd | result | fpcnt | errinfo | reserved => exact h
  | status => exact h.statusWrite d
  | ctrl =>
    obtain ⟨_, _, _, _, rfl⟩ := h.vectors
    exact h.update rfl rfl rfl rfl rfl rfl rfl rfl
  | cfg | kg | k5r | idx | ct _ | key _ =>
    refine h.idleWrite a ?_
    obtain ⟨_, _, _, _, rfl⟩ := h.vectors
    exact h.update rfl rfl rfl rfl rfl rfl rfl rfl

theorem Alike.refused {s t : State} (h : Alike s t) {w : Word} {e : CmdError} (why : Refused s w e) : Refused t w e := by
  have hpasses := h.acceptanceFailing
  obtain ⟨_, _, _, _, rfl⟩ := h.vectors
  cases why with
  | busy running other => exact .busy running other
  | illegal idle word => exact .illegal idle word
  | failing idle word fails => exact .failing idle word ((hpasses _).trans fails)

/-- R62: alike states make alike moves. -/
theorem Move.alike {s t u : State} (move : Move s u) (hs : Coherent s) (h : Alike s t) : ∃ v, Move t v ∧ Alike u v := by
  have hpasses := h.acceptanceFailing
  have hturns : t.turns = s.turns := by obtain ⟨_, _, _, _, rfl⟩ := h.vectors; rfl
  have hphase : t.phase = s.phase := by obtain ⟨_, _, _, _, rfl⟩ := h.vectors; rfl
  have hlatch : t.cmdLatch = s.cmdLatch := by obtain ⟨_, _, _, _, rfl⟩ := h.vectors; rfl
  have hnext (turn : Claims.engineNext s) : Claims.engineNext t := by rwa [Claims.engineNext, hturns]
  cases move with
  | rest turn idle => exact ⟨t, .rest (hnext turn) (hphase.trans idle), h⟩
  | execute turn exec latched simple passes =>
    refine ⟨_, .execute (hnext turn) (hphase.trans exec) (hlatch ▸ latched) simple ((hpasses _).trans passes), ?_⟩
    have heff := h.effectOf passes
    refine heff.update rfl rfl rfl rfl rfl rfl rfl ?_
    obtain ⟨_, _, _, _, hrec⟩ := heff.vectors
    rw [hrec]
    rfl
  | control turn latched row =>
    obtain ⟨v, rowt, huv⟩ := row.alike hs h
    exact ⟨v, .control (hnext turn) (hlatch ▸ latched) rowt, huv⟩
  | @read a rest turn =>
    refine ⟨_, .read (hturns.trans turn), h.update rfl rfl rfl rfl rfl rfl rfl ?_⟩
    rw [hostReadTurn, h.hostRead]
    obtain ⟨_, _, _, _, rfl⟩ := h.vectors
    rfl
  | register turn reg => exact ⟨_, .register (hturns.trans turn) reg, h.hostWrite _ _⟩
  | refuse turn why => exact ⟨_, .refuse (hturns.trans turn) (h.refused why), h.raise _ _⟩
  | request turn running =>
    refine ⟨_, .request (hturns.trans turn) (hphase ▸ running), ?_⟩
    obtain ⟨_, _, _, _, rfl⟩ := h.vectors
    unfold requestAbort
    dsimp only
    split <;> exact h.update rfl rfl rfl rfl rfl rfl rfl rfl
  | @accept w i rest turn idle word passes =>
    refine ⟨_, .accept (hturns.trans turn) (hphase.trans idle) word ((hpasses _).trans passes), ?_⟩
    obtain ⟨_, _, _, _, rfl⟩ := h.vectors
    cases i <;> exact h.update rfl rfl rfl rfl rfl rfl rfl rfl
  | reset turn =>
    refine ⟨_, .reset (hturns.trans turn), ?_⟩
    obtain ⟨_, _, _, _, rfl⟩ := h.vectors
    exact ⟨⟨_, _, _, _, rfl⟩, fun _ _ => rfl, fun _ _ => rfl, fun _ _ => rfl, fun _ _ => rfl⟩

/-- Settles O59: alike states read alike, and alike moves lead to alike states. -/
theorem uncoveredVectorsAreUnobservable : Obligations.UncoveredVectorsAreUnobservable := fun s t hs hst => by
  have h : Alike s t := alike_iff.2 hst
  refine ⟨h.hostRead, h.irq, fun s' hstep => ?_⟩
  obtain ⟨u, move, rfl⟩ := move_of_step hstep
  obtain ⟨v, movet, huv⟩ := move.alike hs h
  refine ⟨_, step_of_move movet, alike_iff.1 (huv.update rfl rfl rfl rfl rfl rfl rfl ?_)⟩
  obtain ⟨_, _, _, _, rfl⟩ := huv.vectors
  rfl

end Sys2Proof.Machine
end

section
/-! Encoding and steps (30_encoding.md R112 to R118; 10_state.md R34): the decoder and encoder are inverse, and a step runs the
command that is submitted or latched. -/

namespace Sys2Proof

/-- Settles O1: every command is read back from its fields. -/
theorem decodeEncodeRoundTrip : Obligations.DecodeEncodeRoundTrip := decode_encode

/-- Settles O2: the decoder answers a command only on its own word. -/
theorem legalWordIsItsEncoding : Obligations.LegalWordIsItsEncoding := fun _ _ => encode_of_decode

/-- Settles O4: the words of the assembler table, each with its fields. -/
theorem specWordsDecode : Obligations.SpecWordsDecode := by
  unfold Obligations.SpecWordsDecode
  decide

end Sys2Proof

namespace Sys2Proof.Machine

/-- Settles O5: address 0 is CMD, whose legal words are commands. -/
theorem stepRunsSubmittedCommand : Obligations.StepRunsSubmittedCommand := fun s w rest i turns word => by
  have hturn : hostWriteTurn 0#5 w s = commandWrite w s := rfl
  rw [step, takeTurn_write turns, hturn, commandWrite_of_decode word]

/-- Settles O6: the engine's turn decodes CMDLATCH while a command runs and does nothing in IDLE. -/
theorem stepRunsLatchedCommand : Obligations.StepRunsLatchedCommand := fun s turn => by
  constructor
  · intro i running latched
    rw [step, takeTurn_of_engineNext turn, engineTurn_of_decode running latched]
  · intro idle
    rw [step_of_move (.rest turn idle), endTurn]

/-- Settles O8: `raise` looks at the recorded error only. -/
theorem raiseKeepsTheFirstError : Obligations.RaiseKeepsTheFirstError := fun e info s => by
  unfold raise
  constructor
  · intro h
    rw [h]
  · intro h
    split
    next hnone => exact absurd hnone h
    next => rfl

/-! ### The EXEC step of a command whose checks pass -/

/-- R223: the EXEC step is the pseudocode and the common completion. -/
theorem exec_completes {i : Instr} {s : State} (turn : Claims.engineExec s) (simple : isSimple i = true)
    (passes : acceptanceFailing i s = none) : exec i s = .next (finish (effectOf i s)) := by
  obtain ⟨ha, hp⟩ := turn
  rw [exec_engine_exec simple ha hp, simpleExec_of_none passes]

/-- Settles O17: NOP and ABORT have no check and no pseudocode. -/
theorem nopAndIdleAbortOnlyComplete : Obligations.NopAndIdleAbortOnlyComplete := fun _ turn =>
  ⟨exec_completes turn rfl rfl, exec_completes turn rfl rfl⟩

/-! ### What makes the checks of each command pass -/

theorem slotInRange_of_slot {arg : BitVec 3} {k : Slot} (hk : slotOf arg = some k) : slotInRange arg = true :=
  (slotInRange_iff arg).2 ⟨k, hk⟩

theorem passes_vclr {arg : BitVec 3} {k : Slot} (hk : slotOf arg = some k) (s : State) :
    acceptanceFailing (.vclr arg) s = none := by
  simp [acceptanceFailing, vclrFailing, firstFailing_eq_none_iff, slotInRange_of_slot hk]

theorem passes_vflip {arg : BitVec 3} {k : Slot} (hk : slotOf arg = some k) {s : State} (h : s.vinit[k] = true) :
    acceptanceFailing (.vflip arg) s = none := by
  have hinit : argInit arg s = true := (argInit_of_slot hk s).trans h
  simp [acceptanceFailing, vflipFailing, firstFailing_eq_none_iff, slotInRange_of_slot hk, hinit]

theorem passes_vtest {arg : BitVec 3} {k : Slot} (hk : slotOf arg = some k) {s : State} (h : s.vinit[k] = true) :
    acceptanceFailing (.vtest arg) s = none := passes_vflip hk h

theorem stestFailing_eq_none {arg : BitVec 3} {k : Slot} (hk : slotOf arg = some k) {w : Scratch} {s : State}
    (h : validAt w (validOf (setOfSlot k) s) = true) (hidx : s.idx.toNat < 2 ^ scratchWidth w) :
    stestFailing w arg s = none := by
  simp [stestFailing, firstFailing_eq_none_iff, slotInRange_of_slot hk, argValid_of_slot hk, h, hidx]

theorem passes_tsum {arg : BitVec 3} {k : Slot} (hk : slotOf arg = some k) {s : State}
    (h : (validOf (setOfSlot k) s).sv8 = true) : acceptanceFailing (.tsum arg) s = none := by
  simp [acceptanceFailing, tsumFailing, firstFailing_eq_none_iff, slotInRange_of_slot hk, argValid_of_slot hk, validAt, h]

/-- R142: the ids of the rule. -/
theorem idInRange_of_legalId {id : BitVec 3} (h : Claims.legalId id) : idInRange id = true := by
  revert id; decide

theorem passes_extract {id : BitVec 3} (h : Claims.legalId id) (s : State) : acceptanceFailing (.extract id) s = none := by
  simp [acceptanceFailing, extractFailing, firstFailing_eq_none_iff, idInRange_of_legalId h]

theorem passes_place {s : State} (h : Claims.legalId s.configId) : acceptanceFailing .place s = none := by
  simp [acceptanceFailing, placeFailing, firstFailing_eq_none_iff, configIdBad, idInRange_of_legalId h]

theorem setInit_of_rows {x : RowSet} {s : State} (h : ∀ r : Fin 3, s.vinit[slotAt x r] = true) : setInit x s = true := by
  have hrow (r : Fin 3) : s.vinit[(slotAt x r).val] = true := h r
  simp [setInit, hrow]

theorem passes_red1 {x : RowSet} {s : State} (h : ∀ r : Fin 3, s.vinit[slotAt x r] = true) :
    acceptanceFailing (.red1 x) s = none := by
  simp [acceptanceFailing, red1Failing, firstFailing_eq_none_iff, setInit_of_rows h]

theorem passes_red2 {x : RowSet} {s : State} (h : (validOf x s).sv24 = true) : acceptanceFailing (.red2 x) s = none := by
  simp [acceptanceFailing, red2Failing, firstFailing_eq_none_iff, h]

theorem passes_red3 {x : RowSet} {s : State} (h : (validOf x s).sv16 = true) : acceptanceFailing (.red3 x) s = none := by
  simp [acceptanceFailing, red3Failing, firstFailing_eq_none_iff, h]

theorem passes_zchk {x : RowSet} {s : State} (h : (validOf x s).sv8 = true) : acceptanceFailing (.zchk x) s = none := by
  simp [acceptanceFailing, zchkFailing, firstFailing_eq_none_iff, h]

end Sys2Proof.Machine
end

section
/-! Sequences of FLIPs (20_memory.md R92, 41_vector_memory.md R165). -/

namespace Sys2Proof.Machine

theorem runs_add {m n : Nat} {s u t : State} (hm : Claims.runs m s u) (hn : Claims.runs n u t) : Claims.runs (m + n) s t := by
  induction m generalizing s with
  | zero =>
    obtain rfl : s = u := hm
    rwa [Nat.zero_add]
  | succ m ih =>
    obtain ⟨v, hstep, hruns⟩ := hm
    rw [Nat.succ_add]
    exact ⟨v, hstep, ih hruns⟩

theorem flipWord_eq_encode (arg : BitVec 3) : 0x00000002#32 + (arg.setWidth 32 <<< 8) = encode (.vflip arg) := by
  revert arg; decide

/-- R165: `FLIP s, i` from an idle state, the three turns that carry it out. -/
theorem flip_runs {s : State} {arg : BitVec 3} {k : Slot} {i : Word} {rest : List Turn} (idle : s.phase = .idle)
    (hk : slotOf arg = some k) (hinit : s.vinit[k] = true)
    (turns : s.turns = .write 6#5 i :: .write 0#5 (encode (.vflip arg)) :: .engine :: rest) :
    ∃ t, Claims.runs 3 s t ∧ t.phase = .idle ∧ t.turns = rest ∧ t.err = s.err ∧ t.vinit = s.vinit ∧
      t.v32 = s.v32.set k (memFlip s.v32[k] i.toNat) := by
  have hidx : hostWrite 6#5 i s = { s with idx := i } := idleWrite_idle idle 6#5 fun t => { t with idx := i }
  have hwrite := step_of_move (.register turns (by decide))
  rw [hidx] at hwrite
  let u : State := endTurn { s with idx := i }
  have hu : u.turns = .write 0#5 (encode (.vflip arg)) :: .engine :: rest := congrArg List.tail turns
  have hsubmit := step_of_move (.accept hu idle (decode_encode _) (passes_vflip hk hinit))
  let v : State := endTurn (Claims.accepted (.vflip arg) (encode (.vflip arg)) u)
  have hv : v.turns = .engine :: rest := congrArg List.tail hu
  have hengine := step_of_move (s := v) (.execute (.inr ⟨rest, hv⟩) rfl (decode_encode _) rfl (passes_vflip hk hinit))
  have heff : effectOf (.vflip arg) v = flipSlot k v := onSlot_of_some hk flipSlot v
  rw [heff] at hengine
  refine ⟨_, ⟨u, hwrite, v, hsubmit, _, hengine, rfl⟩, rfl, ?_, ?_, ?_, ?_⟩
  · simp [flipSlot, hv]
  all_goals
    simp only [flipSlot, endTurn_err, finish_err, setValid_err, endTurn_vinit, finish_vinit, setValid_vinit, endTurn_v32,
      finish_v32, setValid_v32]
    rfl

/-- R92: one more flip at `i` changes the parity at `i`. -/
theorem xor_decide_count_cons (i j : Word) (is : List Word) :
    (decide (j.toNat = i.toNat) ^^ decide (is.count j % 2 = 1)) = decide ((i :: is).count j % 2 = 1) := by
  rw [List.count_cons]
  by_cases h : j = i
  · subst h
    rcases Nat.mod_two_eq_zero_or_one (is.count j) with hc | hc <;> simp [Nat.add_mod, hc]
  · have hne : ¬i = j := fun he => h he.symm
    have hnat : ¬j.toNat = i.toNat := mt BitVec.eq_of_toNat_eq h
    simp [hnat, hne]

/-- Settles O24, by induction on the flips. -/
theorem flipSequenceKeepsTheParityInvariant : Obligations.FlipSequenceKeepsTheParityInvariant := by
  intro s arg k is idle harg hinit turns
  have hk : slotOf arg = some k := slotOf_eq_some.2 harg
  induction is generalizing s with
  | nil => exact ⟨s, rfl, idle, turns, rfl, by simp, fun _ _ => rfl⟩
  | cons i is ih =>
    rw [Claims.flipTurns, flipWord_eq_encode] at turns
    obtain ⟨u, hruns, huidle, huturns, huerr, huinit, hu32⟩ := flip_runs idle hk hinit turns
    obtain ⟨t, htruns, htidle, htturns, hterr, htbit, htframe⟩ := ih u huidle (by rw [huinit]; exact hinit) huturns
    refine ⟨t, ?_, htidle, htturns, hterr.trans huerr, fun j => ?_, fun j hj => ?_⟩
    · rw [List.length_cons, Nat.mul_succ, Nat.add_comm]
      exact runs_add hruns htruns
    · have hflip : u.v32[k] = memFlip s.v32[k] i.toNat := by simp [hu32]
      rw [htbit, hflip, memRead_memFlip, Bool.xor_assoc, xor_decide_count_cons]
    · have hkeep : u.v32[j] = s.v32[j] := by
        have hne : k.val ≠ j.val := fun he => hj (Fin.ext he.symm)
        simp [hu32, hne]
      rw [htframe j hj, hkeep]

end Sys2Proof.Machine
end

section
/-! The EXEC steps of the simple commands (40_tables_extract_place.md, 41_vector_memory.md, 42_reduce.md, 43_final_check.md): what
each changes, and that nothing else changes but the common completion. -/

namespace Sys2Proof.Machine

/-! ### The rules' words and the model's -/

theorem setOfArg_of_slot {arg : BitVec 3} {k : Slot} (h : arg.toNat = k.val) : Claims.setOfArg arg = setOfSlot k := by
  simp only [Claims.setOfArg, setOfSlot, h]

/-- R57: the completion and the valid bits are separate. -/
theorem finish_setValid (x : RowSet) (v : Valid) (s : State) :
    finish (setValid x v s) = Claims.withValid x v (Claims.completed s) := by
  cases x <;> rfl

theorem tableOf_eq_selected (tsel : Byte) (j : Fin 4) :
    tableOf (tsel.extractLsb' (2 * j.val) 2) = Claims.selected tsel j := by
  have hfield : (tsel >>> (2 * j.val)).toNat % 4 = (tsel.extractLsb' (2 * j.val) 2).toNat := by
    rw [BitVec.extractLsb'_toNat, BitVec.toNat_ushiftRight]
  rw [Claims.selected, hfield]
  generalize tsel.extractLsb' (2 * j.val) 2 = field
  revert field
  decide

/-- R38: the tables of a set. -/
theorem tableFor_eq_table (x : RowSet) (j : Fin 4) (s : State) : tableFor x j s = Claims.table x j s := by
  rw [tableFor, tableOf_eq_selected]
  cases x <;> rfl

/-- R84: four bytes side by side, by shifts. -/
theorem append_bytes (a b c d : Byte) :
    (a ++ b ++ c ++ d : Word) =
      (a.setWidth 32 <<< 24) ||| (b.setWidth 32 <<< 16) ||| (c.setWidth 32 <<< 8) ||| d.setWidth 32 := by
  ext k hk
  simp
  grind

/-! ### EXTRACT and PLACE -/

/-- Settles O18: the checks pass, and the positions are those of the table. -/
theorem extractGathersTheAntiDiagonal : Obligations.ExtractGathersTheAntiDiagonal := fun s id turn hid => by
  rw [exec_completes turn rfl (passes_extract hid s), ← append_bytes]
  simp only [← pos_eq_positions hid]
  rfl

/-- Settles O19: the checks pass, and `placeQuad` writes the positions of the table and no others. -/
theorem placeScattersTheQuadruple : Obligations.PlaceScattersTheQuadruple := fun s turn hid => by
  refine ⟨_, exec_completes turn rfl (passes_place hid), rfl, fun j => ?_, fun n hn => ?_⟩
  · simp only [← pos_eq_positions hid, ← quadByte_eq_keyByte]
    exact placeQuad_getElem_pos s.kg s.configId s.key j
  · simp only [← pos_eq_positions hid] at hn
    exact placeQuad_getElem_of_ne s.kg s.key hn

/-! ### VCLR, VFLIP and the bit tests -/

/-- One slot of the six replaced. -/
theorem getElem_set_slot {α : Type} (v : Vector α 6) (k j : Slot) (a : α) : (v.set k a)[j] = if j = k then a else v[j] := by
  simp only [Fin.getElem_fin, Vector.getElem_set, Fin.ext_iff, eq_comm]

/-- Settles O21: VCLR needs a slot, and writes it. -/
theorem vclrClearsTheSlot : Obligations.VclrClearsTheSlot := fun s arg k turn harg => by
  have hk : slotOf arg = some k := slotOf_eq_some.2 harg
  have heff : effectOf (.vclr arg) s = clearSlot k s := onSlot_of_some hk clearSlot s
  have h32 : (finish (clearSlot k s)).v32 = s.v32.set k memZero := setValid_v32 _ _ _
  have hinit : (finish (clearSlot k s)).vinit = s.vinit.set k true := setValid_vinit _ _ _
  refine ⟨_, exec_completes turn rfl (passes_vclr hk s), ?_⟩
  rw [heff, setOfArg_of_slot harg]
  refine ⟨?_, fun i => ?_, fun j hj => ?_, fun j => ?_⟩
  · rw [h32, hinit]
    exact finish_setValid _ _ _
  · rw [h32, getElem_set_slot, if_pos rfl, memRead_memZero]
  · rw [h32, getElem_set_slot, if_neg hj]
  · rw [hinit, getElem_set_slot]
    by_cases hj : j = k <;> simp [hj]

/-- Settles O22: VFLIP needs an initialised slot, and flips its bit at IDX. -/
theorem vflipFlipsExactlyOneBit : Obligations.VflipFlipsExactlyOneBit := fun s arg k turn harg hinit => by
  have hk : slotOf arg = some k := slotOf_eq_some.2 harg
  have heff : effectOf (.vflip arg) s = flipSlot k s := onSlot_of_some hk flipSlot s
  have h32 : (finish (flipSlot k s)).v32 = s.v32.set k (memFlip s.v32[k] s.idx.toNat) := setValid_v32 _ _ _
  refine ⟨_, exec_completes turn rfl (passes_vflip hk hinit), ?_⟩
  rw [heff, setOfArg_of_slot harg]
  refine ⟨?_, fun i => ?_, fun j hj => ?_⟩
  · rw [h32]
    exact finish_setValid _ _ _
  · rw [h32, getElem_set_slot, if_pos rfl, memRead_memFlip]
  · rw [h32, getElem_set_slot, if_neg hj]

/-- R164, R166: a command that puts a Word into RESULT. -/
theorem exec_onSlot_completes {i : Instr} {f : Slot → State → State} {arg : BitVec 3} {k : Slot} {s t : State}
    (turn : Claims.engineExec s) (simple : isSimple i = true) (harg : arg.toNat = k.val)
    (heff : effectOf i s = onSlot arg f s) (passes : acceptanceFailing i s = none) (ht : finish (f k s) = t) :
    exec i s = .next t := by
  rw [exec_completes turn simple passes, heff, onSlot_of_some (slotOf_eq_some.2 harg), ht]

/-- Settles O23: each test reads the slot's vector of its width at IDX. -/
theorem bitTestsReadIntoResult : Obligations.BitTestsReadIntoResult := fun s arg k turn harg => by
  have hk : slotOf arg = some k := slotOf_eq_some.2 harg
  rw [setOfArg_of_slot harg]
  refine ⟨fun hinit => ?_, fun hv hidx => ?_, fun hv hidx => ?_, fun hv hidx => ?_⟩
  · exact exec_onSlot_completes turn rfl harg rfl (passes_vtest hk hinit) rfl
  · exact exec_onSlot_completes turn rfl harg rfl (stestFailing_eq_none (w := .w24) hk hv hidx) rfl
  · exact exec_onSlot_completes turn rfl harg rfl (stestFailing_eq_none (w := .w16) hk hv hidx) rfl
  · exact exec_onSlot_completes turn rfl harg rfl (stestFailing_eq_none (w := .w8) hk hv hidx) rfl

/-- Settles O36: TSUM reads the slot's width-8 vector at K5. -/
theorem tsumPutsTheSumIntoResult : Obligations.TsumPutsTheSumIntoResult := fun s arg k turn harg hv => by
  rw [setOfArg_of_slot harg] at hv
  exact exec_onSlot_completes turn rfl harg rfl (passes_tsum (slotOf_eq_some.2 harg) hv) rfl

/-- R204: the zero condition as a Word. -/
theorem wordOfBool_zeroCondition (x : RowSet) (k5 : Byte) (s : State) :
    wordOfBool (zeroCondition x k5 s) = if Claims.allRowsZero x k5 s then 1#32 else 0#32 := by
  unfold wordOfBool Claims.allRowsZero
  simp only [zeroCondition_iff]

/-- Settles O37: ZCHK reads the set's width-8 vectors at K5. -/
theorem zchkPutsTheZeroConditionIntoResult : Obligations.ZchkPutsTheZeroConditionIntoResult := fun s x turn hv => by
  rw [exec_completes turn rfl (passes_zchk hv), ← wordOfBool_zeroCondition]
  rfl

/-! ### RED1, RED2, RED3 -/

/-- R180, R196: the rows of the set and the rows of the other. -/
theorem mapRows_of_forall_ne {x : RowSet} {k : Slot} (h : ∀ r, k ≠ slotAt x r) (f : Memory → Memory)
    (inp out : Vector Memory 6) : (mapRows x f inp out)[k] = out[k] := by
  refine mapRows_of_ne (fun hk => ?_) f inp out
  obtain ⟨r, hr⟩ := slotAt_surj k
  exact h r (hk ▸ hr)

/-- Settles O26: stage 1, on initialised rows. -/
theorem red1ReducesEveryRow : Obligations.Red1ReducesEveryRow := fun s x turn hinit => by
  have h24 : (finish (stage1 x s)).v24 =
      mapRows x (fun v => reduce1 v s.k1 s.k2 (tableFor x 0 s) (tableFor x 1 s)) s.v32 s.v24 := setValid_v24 _ _ _
  refine ⟨finish (stage1 x s), exec_completes turn rfl (passes_red1 hinit), ?_, fun r => ?_, fun k hk => ?_⟩
  · rw [h24]
    exact finish_setValid x afterStage1 _
  · simp only [h24, mapRows_slotAt, tableFor_eq_table, State.k1, State.k2, quadByte_eq_keyByte]
  · rw [h24, mapRows_of_forall_ne hk]

/-- Settles O27: stage 2, on rows whose width 24 is valid, and stays so. -/
theorem red2ReducesEveryRow : Obligations.Red2ReducesEveryRow := fun s x turn hv => by
  have h16 : (finish (stage2 x s)).v16 = mapRows x (fun v => reduce2 v s.k3 (tableFor x 2 s)) s.v24 s.v16 :=
    setValid_v16 _ _ _
  have hvalid : afterStage2 (validOf x s) = ⟨true, true, false⟩ := by rw [afterStage2, hv]
  refine ⟨finish (stage2 x s), exec_completes turn rfl (passes_red2 hv), ?_, fun r => ?_, fun k hk => ?_⟩
  · rw [h16, ← hvalid]
    exact finish_setValid x (afterStage2 (validOf x s)) _
  · simp only [h16, mapRows_slotAt, tableFor_eq_table, State.k3, quadByte_eq_keyByte]
  · rw [h16, mapRows_of_forall_ne hk]

/-- Settles O28: stage 3, on rows whose width 16 is valid, and stays so. -/
theorem red3ReducesEveryRow : Obligations.Red3ReducesEveryRow := fun s x turn hv => by
  have h8 : (finish (stage3 x s)).v8 = mapRows x (fun v => reduce3 v s.k4 (tableFor x 3 s)) s.v16 s.v8 :=
    setValid_v8 _ _ _
  have hvalid : afterStage3 (validOf x s) = ⟨(validOf x s).sv24, true, true⟩ := by rw [afterStage3, hv]
  refine ⟨finish (stage3 x s), exec_completes turn rfl (passes_red3 hv), ?_, fun r => ?_, fun k hk => ?_⟩
  · rw [h8, ← hvalid]
    exact finish_setValid x (afterStage3 (validOf x s)) _
  · simp only [h8, mapRows_slotAt, tableFor_eq_table, State.k4, quadByte_eq_keyByte]
  · rw [h8, mapRows_of_forall_ne hk]

end Sys2Proof.Machine
end

section
/-! The key-search controller (44_search.md): how the search commands and ABORT are taken, and each row of the step table in the
rules' words. -/

namespace Sys2Proof.Machine

/-! ### The host's turn -/

/-- R221: on the host's turn, idle and with its checks passed, a command is accepted. -/
theorem exec_host_accepted {i : Instr} {s : State} (ha : actor s = .host) (idle : s.phase = .idle)
    (hi : Claims.admissible i s) : exec i s = .next (Claims.accepted i (encode i) s) := by
  rw [exec_host_idle i ha idle, acceptanceFailing_of_admissible hi, submit_accepted idle, entering_accept]

/-- Settles O38: the three commands are admissible, and accepted. -/
theorem searchCommandsStartTheController : Obligations.SearchCommandsStartTheController := fun _ ha idle =>
  ⟨fun hid hinit => ⟨exec_host_accepted ha idle (admissible_search hid hinit (.inl rfl)),
    exec_host_accepted ha idle (admissible_search hid hinit (.inr rfl))⟩,
    fun h3 h4 h5 => exec_host_accepted ha idle (admissible_verify h3 h4 h5)⟩

/-- R241: ABORT while BUSY = 1. -/
theorem exec_abort_busy {s : State} (ha : actor s = .host) (running : s.phase ≠ .idle) :
    exec .abort s = .next (Claims.abortWhileBusy s) := by
  rw [exec_abort_host ha, (busy_eq_true_iff s).2 running, if_pos rfl, requestAbort_eq_abortWhileBusy]

/-- Settles O39: the three cases of ABORT. -/
theorem abortRequestsOnlyOfARunningSearch : Obligations.AbortRequestsOnlyOfARunningSearch := fun s ha => by
  refine ⟨fun running notExec search => ?_, fun h => ?_, fun idle => ?_⟩
  · rw [exec_abort_busy ha running, Claims.abortWhileBusy, if_pos ⟨notExec, search⟩]
  · have running : s.phase ≠ .idle := by
      rcases h with hexec | ⟨running, -⟩
      · simp [hexec]
      · exact running
    have hnot : ¬(s.phase ≠ .exec ∧ s.vonly = false) := by
      rintro ⟨notExec, search⟩
      rcases h with hexec | ⟨-, hvonly⟩
      · exact notExec hexec
      · simp [search] at hvonly
    rw [exec_abort_busy ha running, Claims.abortWhileBusy, if_neg hnot]
  · rw [exec_abort_host ha, (busy_eq_false_iff s).2 idle]
    rfl

/-! ### ABORT_REQ -/

/-- R224: on the engine's turn a row of the step table is the meaning of every command. -/
theorem exec_of_controlMove (i : Instr) {s u : State} (ha : actor s = .engine) (row : ControlMove s u) :
    exec i s = .next u := by
  obtain ⟨running, notExec⟩ := row.running
  rw [exec_engine_controller i ha running notExec, controllerStep_of_move row]

/-- R242: no row but P_PAIR's looks at the request or writes ABORTED. -/
theorem ControlMove.flipRequest {s u : State} (row : ControlMove s u) (hp : s.phase ≠ .pPair) :
    u.aborted = s.aborted ∧ ∃ v, ControlMove { s with abortReq := !s.abortReq } v ∧ v = { u with abortReq := v.abortReq } := by
  cases row with
  | abort phase | pair phase => exact absurd phase hp
  | k3 phase => exact ⟨rfl, _, .k3 phase, rfl⟩
  | k4 phase => exact ⟨rfl, _, .k4 phase, rfl⟩
  | candidate phase zero => exact ⟨rfl, _, .candidate phase zero, rfl⟩
  | nextK5 phase zero more => exact ⟨rfl, _, .nextK5 phase zero more, rfl⟩
  | noCandidate phase zero last => exact ⟨rfl, _, .noCandidate phase zero last, rfl⟩
  | s1 phase => exact ⟨rfl, _, .s1 phase, rfl⟩
  | s2 phase => exact ⟨rfl, _, .s2 phase, rfl⟩
  | s3 phase => exact ⟨rfl, _, .s3 phase, rfl⟩
  | verified phase zero only => exact ⟨rfl, _, .verified phase zero only, rfl⟩
  | found phase zero only => exact ⟨rfl, _, .found phase zero only, rfl⟩
  | nextK5v phase zero more => exact ⟨rfl, _, .nextK5v phase zero more, rfl⟩
  | unverified phase zero last only => exact ⟨rfl, _, .unverified phase zero last only, rfl⟩
  | discard phase zero last only => exact ⟨rfl, _, .discard phase zero last only, rfl⟩
  | exhausted phase last => exact ⟨rfl, _, .exhausted phase last, rfl⟩
  | advance phase more => exact ⟨rfl, _, .advance phase more, rfl⟩

/-- R223, R242: the pseudocode of a simple command does not look at the request. -/
theorem effectOf_abortReq_update (i : Instr) (s : State) (req : Bool) :
    effectOf i { s with abortReq := req } = { effectOf i s with abortReq := req } := by
  cases i with
  | vclr arg =>
    simp only [effectOf, onSlot]
    split
    next k _ =>
      unfold clearSlot
      cases setOfSlot k <;> rfl
    next => rfl
  | vflip arg =>
    simp only [effectOf, onSlot]
    split
    next k _ =>
      unfold flipSlot
      cases setOfSlot k <;> rfl
    next => rfl
  | vtest arg | stest24 arg | stest16 arg | stest8 arg | tsum arg =>
    simp only [effectOf, onSlot]
    split <;> rfl
  | red1 x | red2 x | red3 x => cases x <;> rfl
  | nop | extract _ | place | zchk _ | search | resume | verify | abort => rfl

/-- R223, R242: nor does the EXEC step, which clears it. -/
theorem exec_flipRequest {i : Instr} {s t : State} (ha : actor s = .engine) (hp : s.phase = .exec) (h : exec i s = .next t) :
    t.aborted = s.aborted ∧ exec i { s with abortReq := !s.abortReq } = .next t := by
  cases simple : isSimple i with
  | false =>
    rw [exec_engine_exec_search simple ha hp] at h
    cases h
  | true =>
    rw [exec_engine_exec simple ha hp] at h
    obtain ⟨passes, rfl⟩ := simpleExec_eq_next h
    obtain ⟨_, _, _, _, _, _, _, _, _, _, heff⟩ := effectOf_frame i s
    refine ⟨by rw [heff]; rfl, ?_⟩
    have passes' : acceptanceFailing i { s with abortReq := !s.abortReq } = none :=
      (acceptanceFailing_congr i rfl rfl rfl rfl rfl).trans passes
    refine (exec_completes (s := { s with abortReq := !s.abortReq }) ⟨ha, hp⟩ simple passes').trans ?_
    rw [effectOf_abortReq_update]
    rfl

/-- Settles O40: P_PAIR ends the search on a request; the other rows and the EXEC step do not look at it. -/
theorem abortTakesEffectAtThePairBoundary : Obligations.AbortTakesEffectAtThePairBoundary := fun s => by
  refine ⟨fun ⟨ha, hp⟩ req => ?_, fun t i ha running notPair h => ?_⟩
  · exact ⟨exec_of_controlMove _ ha (.abort hp req), exec_of_controlMove _ ha (.abort hp req)⟩
  · by_cases hp : s.phase = .exec
    · obtain ⟨haborted, hflip⟩ := exec_flipRequest ha hp h
      exact ⟨haborted, t, hflip, rfl⟩
    · have row : ControlMove s (controllerStep s) := controllerStep_move running hp
      rw [exec_of_controlMove i ha row] at h
      cases h
      obtain ⟨haborted, v, hrow, hv⟩ := row.flipRequest notPair
      exact ⟨haborted, v, exec_of_controlMove i ha hrow, hv⟩

/-- R238: a quadruple with K3 = K4 = 0 is the first of its pair. -/
theorem kg_and_pairMask {s : State} (h : s.kg.toNat % 2 ^ 16 = 0) : s.kg &&& 0xFFFF0000#32 = s.kg := by
  have h3 : s.k3 = 0#8 := BitVec.eq_of_toNat_eq (by rw [State.k3, quadByte_toNat]; simp; omega)
  have h4 : s.k4 = 0#8 := BitVec.eq_of_toNat_eq (by rw [State.k4, quadByte_toNat]; simp; omega)
  have hkg : s.k1 ++ s.k2 ++ (s.k3 ++ s.k4) = s.kg :=
    (BitVec.append_assoc (x₁ := s.k1 ++ s.k2)).symm.trans (quadByte_append s.kg)
  rw [h3, h4] at hkg
  rw [← k1_append_k2_append_zero]
  exact hkg

/-- Settles O52: the request ends the search at P_PAIR, and RESUME is accepted with the KG it left. -/
theorem resumeReentersTheAbortedPair : Obligations.ResumeReentersTheAbortedPair := by
  intro s hp req hvonly hfound haborted hdone hkg hid hinit latched turns
  obtain ⟨i, latched⟩ : ∃ i, decode s.cmdLatch = some i := by rcases latched with h | h <;> exact ⟨_, h⟩
  let u : State := endTurn (finish { s with aborted := true, result := 0#32 })
  have habort : step s = .next u := step_of_move (.control (.inr ⟨_, turns⟩) latched (.abort hp req))
  have hu : u.turns = [.write 0#5 0x00000021#32] := congrArg List.tail turns
  have hresume := step_accepted hu rfl (i := .resume) (by decide) (admissible_search hid hinit (.inr rfl))
  refine ⟨u, habort, _, hresume, ?_⟩
  have hmask : u.kg &&& 0xFFFF0000#32 = s.kg := kg_and_pairMask (s := u) hkg
  simp only [Claims.runs, Claims.accepted, hmask]
  simp [u, endTurn, finish, hp, hvonly, hfound, haborted, hdone]

/-! ### The rows of the step table in the rules' words -/

/-- R180, R196: a stage on set A, slot by slot. -/
theorem mapRows_a_getElem (f : Memory → Memory) (inp out : Vector Memory 6) (k : Slot) :
    (mapRows .a f inp out)[k] = if k.val < 3 then f inp[k] else out[k] := by
  by_cases hk : k.val < 3 <;> simp [mapRows, setOfSlot, hk]

/-- R180, R196: a stage on set B, slot by slot. -/
theorem mapRows_b_getElem (f : Memory → Memory) (inp out : Vector Memory 6) (k : Slot) :
    (mapRows .b f inp out)[k] = if 3 ≤ k.val then f inp[k] else out[k] := by
  by_cases hk : 3 ≤ k.val <;> simp [mapRows, setOfSlot, hk]

/-- Settles O41: P_PAIR without a request, P_K3 and P_K4 are the stages on set A. -/
theorem firstRowPipelineSteps : Obligations.FirstRowPipelineSteps := fun s i _ => by
  refine ⟨fun ⟨ha, hp⟩ req => ⟨_, exec_of_controlMove i ha (.pair hp req), rfl, fun k => ?_⟩,
    fun ⟨ha, hp⟩ => ⟨_, exec_of_controlMove i ha (.k3 hp), rfl, fun k => ?_⟩,
    fun ⟨ha, hp⟩ => ⟨_, exec_of_controlMove i ha (.k4 hp), rfl, fun k => ?_⟩⟩ <;>
    simp only [← tableFor_eq_table, ← quadByte_eq_keyByte] <;> exact mapRows_a_getElem _ _ _ k

/-- Settles O42: V_S1, V_S2 and V_S3 are the stages on set B. -/
theorem secondRowPipelineSteps : Obligations.SecondRowPipelineSteps := fun s i _ => by
  refine ⟨fun ⟨ha, hp⟩ => ⟨_, exec_of_controlMove i ha (.s1 hp), rfl, fun k => ?_⟩,
    fun ⟨ha, hp⟩ => ⟨_, exec_of_controlMove i ha (.s2 hp), rfl, fun k => ?_⟩,
    fun ⟨ha, hp⟩ => ⟨_, exec_of_controlMove i ha (.s3 hp), rfl, fun k => ?_⟩⟩ <;>
    simp only [← tableFor_eq_table, ← quadByte_eq_keyByte] <;> exact mapRows_b_getElem _ _ _ k

/-- R203: the zero condition fails when some row's sum is not zero. -/
theorem zeroCondition_eq_false_iff (x : RowSet) (k5 : Byte) (s : State) :
    zeroCondition x k5 s = false ↔ ¬Claims.allRowsZero x k5 s := by
  rw [← Bool.not_eq_true, zeroCondition_iff]

theorem lt_0xFF_of_ne {b : Byte} (h : b ≠ 0xFF#8) : b < 0xFF#8 := by
  by_contra hlt
  exact h (not_lt_0xFF_iff.1 hlt)

/-- Settles O43: the three cases of P_K5. -/
theorem firstRowZeroCheckStep : Obligations.FirstRowZeroCheckStep := fun s i _ ⟨ha, hp⟩ => by
  by_cases hz : Claims.allRowsZero .a s.k5 s
  · rw [if_pos hz]
    exact exec_of_controlMove i ha (.candidate hp ((zeroCondition_iff .a s.k5 s).2 hz))
  · have hzero := (zeroCondition_eq_false_iff .a s.k5 s).2 hz
    rw [if_neg hz]
    by_cases hlast : s.k5 = 0xFF#8
    · rw [if_neg (not_not.2 hlast)]
      exact exec_of_controlMove i ha (.noCandidate hp hzero hlast)
    · rw [if_pos hlast]
      exact exec_of_controlMove i ha (.nextK5 hp hzero (lt_0xFF_of_ne hlast))

/-- R45: the counter as the rule writes it. -/
theorem saturatingSucc_eq (n : Word) : saturatingSucc n = BitVec.ofNat 32 (Claims.sat (n.toNat + 1)) := by
  rw [← saturatingSucc_toNat, BitVec.ofNat_toNat, BitVec.setWidth_eq]

/-- Settles O44: the five cases of V_K5. -/
theorem secondRowZeroCheckStep : Obligations.SecondRowZeroCheckStep := fun s i _ ⟨ha, hp⟩ hid => by
  by_cases hz : Claims.allRowsZero .b s.k5v s
  · have hzero := (zeroCondition_iff .b s.k5v s).2 hz
    simp only [if_pos hz]
    by_cases only : s.vonly = true
    · simp only [if_pos only]
      exact ⟨_, exec_of_controlMove i ha (.verified hp hzero only), rfl⟩
    · have search : s.vonly = false := Bool.eq_false_iff.2 only
      simp only [if_neg only]
      refine ⟨_, exec_of_controlMove i ha (.found hp hzero search), rfl, fun j => ?_, fun n hn => ?_⟩
      · simp only [← pos_eq_positions (hid search), ← quadByte_eq_keyByte]
        exact placeQuad_getElem_pos s.kg s.configId s.key j
      · simp only [← pos_eq_positions (hid search)] at hn
        exact placeQuad_getElem_of_ne s.kg s.key hn
  · have hzero := (zeroCondition_eq_false_iff .b s.k5v s).2 hz
    simp only [if_neg hz]
    by_cases more : s.k5v ≠ 0xFF#8
    · simp only [if_pos more]
      exact ⟨_, exec_of_controlMove i ha (.nextK5v hp hzero (lt_0xFF_of_ne more)), rfl⟩
    · have last : s.k5v = 0xFF#8 := not_not.1 more
      simp only [if_neg more]
      by_cases only : s.vonly = true
      · simp only [if_pos only]
        exact ⟨_, exec_of_controlMove i ha (.unverified hp hzero last only), rfl⟩
      · simp only [if_neg only, ← saturatingSucc_eq]
        exact ⟨_, exec_of_controlMove i ha (.discard hp hzero last (Bool.eq_false_iff.2 only)), rfl⟩

/-- R231: the phase that goes on with a quadruple, by its number. -/
theorem advPhase_eq (q : Word) : advPhase q =
    if q.toNat % 2 ^ 8 ≠ 0 then .pK4 else if q.toNat % 2 ^ 16 ≠ 0 then .pK3 else .pPair := by
  have h3 : quadByte q 3 = 0#8 ↔ q.toNat % 2 ^ 8 = 0 := by
    rw [← BitVec.toNat_inj, quadByte_toNat]
    simp
  have h2 (h : q.toNat % 2 ^ 8 = 0) : quadByte q 2 = 0#8 ↔ q.toNat % 2 ^ 16 = 0 := by
    rw [← BitVec.toNat_inj, quadByte_toNat]
    simp
    omega
  unfold advPhase
  by_cases hb : q.toNat % 2 ^ 8 = 0
  · simp only [ne_eq, h3, hb, h2 hb, not_true_eq_false, if_false]
  · simp only [ne_eq, h3, hb, not_false_eq_true, if_true]

/-- Settles O45: ADV counts KG up, and goes on by the highest byte that changed. -/
theorem advanceVisitsTheNextQuadruple : Obligations.AdvanceVisitsTheNextQuadruple := fun s i _ ⟨ha, hp⟩ => by
  refine ⟨fun last => exec_of_controlMove i ha (.exhausted hp last), fun more => ?_⟩
  refine ⟨_, exec_of_controlMove i ha (.advance hp more), rfl, toNat_add_one more, fun h => ?_, fun h h' => ?_, fun h => ?_⟩
  · exact (advPhase_eq _).trans (if_pos h)
  · exact (advPhase_eq _).trans ((if_neg (not_not.2 h)).trans (if_pos h'))
  · have h8 : (s.kg + 1#32).toNat % 2 ^ 8 = 0 := by
      dsimp only at h
      omega
    exact (advPhase_eq _).trans ((if_neg (not_not.2 h8)).trans (if_neg (not_not.2 h)))

end Sys2Proof.Machine
end

section
/-! What only some moves change (10_state.md R42, R45, R50, R56, 44_search.md R244, 60_exceptions.md R270): each from the moves. -/

namespace Sys2Proof.Machine

/-! ### The error record -/

/-- Settles O9: neither the engine nor a host read records or clears an error. -/
theorem errorRecordChangesOnlyByHostWrites : Obligations.ErrorRecordChangesOnlyByHostWrites := by
  intro s t hstep hwrite hreset
  obtain ⟨u, move, rfl⟩ := move_of_step hstep
  cases move with
  | rest | read => exact ⟨rfl, rfl⟩
  | @execute i =>
    obtain ⟨_, _, _, _, _, _, _, _, _, _, heff⟩ := effectOf_frame i s
    rw [heff]
    exact ⟨rfl, rfl⟩
  | control _ _ row =>
    obtain ⟨_, _, _, _, _, _, _, _, _, _, _, _, _, _, _, _, _, rfl⟩ := row.frame
    exact ⟨rfl, rfl⟩
  | register turn | refuse turn | request turn | accept turn => exact absurd turn (hwrite _ _ _)
  | reset turn => exact absurd turn (hreset _)

/-! ### The width-32 vectors and VINIT -/

theorem onSlot_cases (arg : BitVec 3) (f : Slot → State → State) (s : State) :
    onSlot arg f s = s ∨ ∃ k, slotOf arg = some k ∧ onSlot arg f s = f k s :=
  onSlot_induction (P := fun u => u = s ∨ ∃ k, slotOf arg = some k ∧ u = f k s) (.inl rfl) fun k hk => .inr ⟨k, hk, rfl⟩

/-- R50, R56, R81: V32 and VINIT after the pseudocode of a command: only VCLR and VFLIP write a vector, only VCLR sets VINIT. -/
theorem effectOf_loads (i : Instr) (s : State) :
    ((effectOf i s).v32 = s.v32 ∧ (effectOf i s).vinit = s.vinit) ∨
    ∃ arg k, slotOf arg = some k ∧
      ((i = .vclr arg ∧ (effectOf i s).v32 = s.v32.set k memZero ∧ (effectOf i s).vinit = s.vinit.set k true) ∨
        (i = .vflip arg ∧ (effectOf i s).v32 = s.v32.set k (memFlip s.v32[k] s.idx.toNat) ∧
          (effectOf i s).vinit = s.vinit)) := by
  cases i with
  | vclr arg =>
    rcases onSlot_cases arg clearSlot s with h | ⟨k, hk, h⟩ <;> simp only [effectOf, h]
    · simp
    · exact .inr ⟨arg, k, hk, .inl ⟨rfl, setValid_v32 _ _ _, setValid_vinit _ _ _⟩⟩
  | vflip arg =>
    rcases onSlot_cases arg flipSlot s with h | ⟨k, hk, h⟩ <;> simp only [effectOf, h]
    · simp
    · exact .inr ⟨arg, k, hk, .inr ⟨rfl, setValid_v32 _ _ _, setValid_vinit _ _ _⟩⟩
  | vtest arg => rcases onSlot_cases arg testSlot s with h | ⟨_, _, h⟩ <;> simp [effectOf, h, testSlot]
  | stest24 arg => rcases onSlot_cases arg (testScratch .w24) s with h | ⟨_, _, h⟩ <;> simp [effectOf, h, testScratch]
  | stest16 arg => rcases onSlot_cases arg (testScratch .w16) s with h | ⟨_, _, h⟩ <;> simp [effectOf, h, testScratch]
  | stest8 arg => rcases onSlot_cases arg (testScratch .w8) s with h | ⟨_, _, h⟩ <;> simp [effectOf, h, testScratch]
  | tsum arg => rcases onSlot_cases arg sumSlot s with h | ⟨_, _, h⟩ <;> simp [effectOf, h, sumSlot]
  | red1 x | red2 x | red3 x => exact .inl ⟨setValid_v32 _ _ _, setValid_vinit _ _ _⟩
  | nop | extract _ | place | zchk _ | search | resume | verify | abort => exact .inl ⟨rfl, rfl⟩

/-- R50, R56: V32 and VINIT after a move: only VCLR's and VFLIP's EXEC step and the reset input write them. -/
theorem Move.loads {s u : State} (move : Move s u) (hreset : ∀ rest, s.turns ≠ .reset :: rest) :
    (u.v32 = s.v32 ∧ u.vinit = s.vinit) ∨
    Claims.engineExec s ∧ ∃ arg k, slotOf arg = some k ∧
      ((decode s.cmdLatch = some (.vclr arg) ∧ u.v32 = s.v32.set k memZero ∧ u.vinit = s.vinit.set k true) ∨
        (decode s.cmdLatch = some (.vflip arg) ∧ u.v32 = s.v32.set k (memFlip s.v32[k] s.idx.toNat) ∧
          u.vinit = s.vinit)) := by
  cases move with
  | rest | read => exact .inl ⟨rfl, rfl⟩
  | @execute i turn exec latched =>
    rcases effectOf_loads i s with h | ⟨arg, k, hk, ⟨rfl, h⟩ | ⟨rfl, h⟩⟩
    · exact .inl h
    · exact .inr ⟨⟨engineNext_actor turn, exec⟩, arg, k, hk, .inl ⟨latched, h⟩⟩
    · exact .inr ⟨⟨engineNext_actor turn, exec⟩, arg, k, hk, .inr ⟨latched, h⟩⟩
  | control _ _ row =>
    obtain ⟨_, _, _, _, _, _, _, _, _, _, _, _, _, _, _, _, _, rfl⟩ := row.frame
    exact .inl ⟨rfl, rfl⟩
  | @register a d =>
    obtain ⟨_, _, _, _, _, _, _, _, _, _, _, _, _, hw⟩ := hostWrite_frame a d s
    rw [hw]
    exact .inl ⟨rfl, rfl⟩
  | refuse => exact .inl ⟨raise_v32 _ _ _, raise_vinit _ _ _⟩
  | request => exact .inl ⟨requestAbort_v32 _, requestAbort_vinit _⟩
  | @accept w i =>
    obtain ⟨_, _, _, _, _, _, _, _, _, ha⟩ := accepted_frame i w s
    rw [ha]
    exact .inl ⟨rfl, rfl⟩
  | reset turn => exact absurd turn (hreset _)

/-- Settles O25: a changed bit is one of the slot that VCLR or VFLIP writes. -/
theorem width32VectorsChangeOnlyByLoads : Obligations.Width32VectorsChangeOnlyByLoads := by
  intro s t k i hstep hreset hne
  obtain ⟨u, move, rfl⟩ := move_of_step hstep
  have slot {j : Slot} {m : Memory} (h32 : u.v32 = s.v32.set j m) : j = k ∧ memRead m i ≠ memRead s.v32[k] i := by
    rw [endTurn_v32, h32, getElem_set_slot] at hne
    split at hne
    next hj => exact ⟨hj.symm, hne⟩
    next => exact absurd rfl hne
  rcases move.loads hreset with ⟨h32, -⟩ | ⟨turn, arg, j, hj, ⟨hd, h32, -⟩ | ⟨hd, h32, -⟩⟩
  · exact absurd (by rw [endTurn_v32, h32]) hne
  · obtain ⟨rfl, -⟩ := slot h32
    exact ⟨turn, arg, slotOf_eq_some.1 hj, .inl hd⟩
  · obtain ⟨rfl, hbit⟩ := slot h32
    refine ⟨turn, arg, slotOf_eq_some.1 hj, .inr ⟨hd, ?_⟩⟩
    rw [memRead_memFlip] at hbit
    by_contra hidx
    simp [hidx] at hbit

/-- Settles O49: VINIT changes by VCLR, which sets one bit. -/
theorem vinitIsSetByVclrAndNeverCleared : Obligations.VinitIsSetByVclrAndNeverCleared := by
  intro s t k hstep hreset
  obtain ⟨u, move, rfl⟩ := move_of_step hstep
  rw [endTurn_vinit]
  rcases move.loads hreset with ⟨-, hinit⟩ | ⟨turn, arg, j, hj, ⟨hd, -, hinit⟩ | ⟨-, -, hinit⟩⟩ <;> rw [hinit]
  · exact ⟨id, fun h0 h1 => by rw [h0] at h1; cases h1⟩
  · rw [getElem_set_slot]
    by_cases hk : k = j
    · subst hk
      exact ⟨fun _ => if_pos rfl, fun _ _ => ⟨turn, arg, slotOf_eq_some.1 hj, hd⟩⟩
    · rw [if_neg hk]
      exact ⟨id, fun h0 h1 => by rw [h0] at h1; cases h1⟩
  · exact ⟨id, fun h0 h1 => by rw [h0] at h1; cases h1⟩

/-! ### FOUND -/

/-- Settles O46: only one row of the step table sets FOUND. -/
theorem foundOnlyAfterSecondRowVerification : Obligations.FoundOnlyAfterSecondRowVerification := by
  intro s t hstep hs ht
  obtain ⟨u, move, rfl⟩ := move_of_step hstep
  rw [endTurn_found] at ht
  have unchanged (h : u.found = s.found) : False := by
    rw [h, hs] at ht
    cases ht
  cases move with
  | rest | read => exact (unchanged rfl).elim
  | @execute i =>
    obtain ⟨_, _, _, _, _, _, _, _, _, _, heff⟩ := effectOf_frame i s
    exact (unchanged (by rw [heff]; rfl)).elim
  | control turn _ row =>
    cases row with
    | found phase zero only => exact ⟨⟨engineNext_actor turn, phase⟩, only, (zeroCondition_iff .b s.k5v s).1 zero⟩
    | abort | pair | k3 | k4 | candidate | nextK5 | noCandidate | s1 | s2 | s3 | verified | nextK5v | unverified | discard
    | exhausted | advance => exact (unchanged rfl).elim
  | @register a d =>
    obtain ⟨_, _, _, _, _, _, _, _, _, _, _, _, _, hw⟩ := hostWrite_frame a d s
    exact (unchanged (by rw [hw])).elim
  | refuse => exact (unchanged (raise_found _ _ _)).elim
  | request => exact (unchanged (requestAbort_found _)).elim
  | @accept w i =>
    cases i with
    | search | resume => cases ht
    | _ => exact (unchanged rfl).elim
  | reset => cases ht

/-! ### FPCNT -/

/-- R280: a command that is not admissible has a first check that fails. -/
theorem exists_firstError {i : Instr} {s : State} (h : ¬Claims.admissible i s) : ∃ e, Claims.firstError i s e := by
  by_cases hslot : Claims.slotError i
  · exact ⟨.slot, hslot⟩
  by_cases hid : Claims.idError i s
  · exact ⟨.cfgId, hslot, hid⟩
  by_cases hinit : Claims.uninitError i s
  · exact ⟨.uninit, hslot, hid, hinit⟩
  by_cases hrange : Claims.rangeError i s
  · exact ⟨.range, hslot, hid, hinit, hrange⟩
  · exact absurd ⟨hslot, hid, hinit, hrange⟩ h

theorem acceptanceFailing_eq_none_iff {i : Instr} {s : State} : acceptanceFailing i s = none ↔ Claims.admissible i s := by
  refine ⟨fun hnone => ?_, acceptanceFailing_of_admissible⟩
  by_contra h
  obtain ⟨e, he⟩ := exists_firstError h
  rw [acceptanceFailing_of_firstError he] at hnone
  cases hnone

/-- R280: the check that fails first is the one the rules name, and no other. -/
theorem acceptanceFailing_eq_some_iff {i : Instr} {s : State} {e : CmdError} :
    acceptanceFailing i s = some e ↔ Claims.firstError i s e := by
  refine ⟨fun hsome => ?_, acceptanceFailing_of_firstError⟩
  have h : ¬Claims.admissible i s := by
    rw [← acceptanceFailing_eq_none_iff, hsome]
    nofun
  obtain ⟨e', he⟩ := exists_firstError h
  rw [acceptanceFailing_of_firstError he] at hsome
  exact Option.some.inj hsome ▸ he

/-- R45: a counter that changes has not saturated. -/
theorem saturatingSucc_toNat_of_ne {n : Word} (h : saturatingSucc n ≠ n) : (saturatingSucc n).toNat = n.toNat + 1 := by
  unfold saturatingSucc at h ⊢
  split
  next hlast => exact absurd (if_pos hlast) h
  next hmore => exact toNat_add_one hmore

/-- Settles O47: SEARCH and the reset input zero the counter, and one row of the step table counts it up. -/
theorem fpcntCountsDiscardedCandidates : Obligations.FpcntCountsDiscardedCandidates := by
  intro s t hstep hne
  obtain ⟨u, move, rfl⟩ := move_of_step hstep
  rw [endTurn_fpcnt] at hne ⊢
  cases move with
  | rest | read => exact absurd rfl hne
  | @execute i =>
    obtain ⟨_, _, _, _, _, _, _, _, _, _, heff⟩ := effectOf_frame i s
    exact absurd (by rw [heff]; rfl) hne
  | control turn _ row =>
    cases row with
    | discard phase zero last only =>
      refine .inr (.inr ⟨⟨engineNext_actor turn, phase⟩, only, last, ?_, saturatingSucc_toNat_of_ne hne⟩)
      rw [last] at zero
      exact last ▸ (zeroCondition_eq_false_iff .b 0xFF#8 s).1 zero
    | abort | pair | k3 | k4 | candidate | nextK5 | noCandidate | s1 | s2 | s3 | verified | found | nextK5v | unverified
    | exhausted | advance => exact absurd rfl hne
  | @register a d =>
    obtain ⟨_, _, _, _, _, _, _, _, _, _, _, _, _, hw⟩ := hostWrite_frame a d s
    exact absurd (by rw [hw]) hne
  | refuse => exact absurd (raise_fpcnt _ _ _) hne
  | request => exact absurd (requestAbort_fpcnt _) hne
  | @accept w i rest turn idle word passes =>
    cases i with
    | search =>
      have hw : 0x00000020#32 = w := encode_of_decode word
      exact .inl ⟨rfl, idle, acceptanceFailing_eq_none_iff.1 passes, rest, hw ▸ turn⟩
    | _ => exact absurd rfl hne
  | @reset rest turn => exact .inr (.inl ⟨rfl, rest, turn⟩)

/-! ### KEY -/

/-- R85: word `n` of a block holds bytes `4n` to `4n + 3`, the lowest in the least significant lane. -/
theorem setBlockWord_getElem (blk : Block) (n : Fin 4) (d : Word) (m : Fin 16) :
    (setBlockWord blk n d)[m] = if m.val / 4 = n.val then (d >>> (8 * (m.val % 4))).setWidth 8 else blk[m] := by
  have hbyte (j : Nat) : d.extractLsb' j 8 = (d >>> j).setWidth 8 := by
    ext k hk
    simp
  unfold setBlockWord
  simp only [Fin.getElem_fin, Vector.getElem_set, hbyte]
  by_cases hm : m.val / 4 = n.val
  · rw [if_pos hm]
    have hlane : m.val = 4 * n.val ∧ m.val % 4 = 0 ∨ m.val = 4 * n.val + 1 ∧ m.val % 4 = 1 ∨
        m.val = 4 * n.val + 2 ∧ m.val % 4 = 2 ∨ m.val = 4 * n.val + 3 ∧ m.val % 4 = 3 := by omega
    rcases hlane with ⟨h, hr⟩ | ⟨h, hr⟩ | ⟨h, hr⟩ | ⟨h, hr⟩ <;> rw [hr] <;> simp [h]
  · have h0 : ¬4 * n.val = m.val := by omega
    have h1 : ¬4 * n.val + 1 = m.val := by omega
    have h2 : ¬4 * n.val + 2 = m.val := by omega
    have h3 : ¬4 * n.val + 3 = m.val := by omega
    simp [hm, h0, h1, h2, h3]

theorem eq_of_regAt_key {a : BitVec 5} {m : Fin 4} (h : regAt a = .key m) : a = BitVec.ofNat 5 (12 + m.val) := by
  revert a m; decide

/-- R42: a write to a word of KEY while idle. -/
theorem hostWrite_key_idle {a : BitVec 5} {m : Fin 4} (hr : regAt a = .key m) {s : State} (idle : s.phase = .idle) (d : Word) :
    hostWrite a d s = { s with key := setBlockWord s.key m d } := by
  rw [hostWrite, hr]
  exact idleWrite_idle idle a fun t => { t with key := setBlockWord t.key m d }

/-- R42: a write to another register. -/
theorem hostWrite_key_of_ne {a : BitVec 5} (hr : ∀ m, regAt a ≠ .key m) (d : Word) (s : State) :
    (hostWrite a d s).key = s.key := by
  have hidle (f : State → State) (hf : (f s).key = s.key) : (idleWrite a f s).key = s.key := by
    unfold idleWrite
    split
    · exact raise_key _ _ _
    · exact hf
  unfold hostWrite
  cases ha : regAt a with
  | key m => exact absurd ha (hr m)
  | status =>
    obtain ⟨_, _, _, hw⟩ := statusWrite_frame d s
    exact (congrArg State.key hw :)
  | cfg | kg | k5r | idx | ct _ => exact hidle _ rfl
  | cmd | ctrl | result | fpcnt | errinfo | reserved => rfl

/-- R42, R48: a host write changes a byte of KEY only while idle and at its word. -/
theorem hostWrite_key {a : BitVec 5} {d : Word} {s : State} {n : Fin 16} (h : (hostWrite a d s).key[n] ≠ s.key[n]) :
    s.phase = .idle ∧ a = BitVec.ofNat 5 (12 + n.val / 4) := by
  by_cases idle : s.phase = .idle
  · refine ⟨idle, ?_⟩
    by_cases hr : ∃ m, regAt a = .key m
    · obtain ⟨m, hr⟩ := hr
      rw [hostWrite_key_idle hr idle, setBlockWord_getElem] at h
      by_cases hm : n.val / 4 = m.val
      · rw [hm]
        exact eq_of_regAt_key hr
      · exact absurd (if_neg hm) h
    · exact absurd (by rw [hostWrite_key_of_ne (not_exists.1 hr)]) h
  · obtain ⟨_, _, _, _, _, hw⟩ := hostWrite_busy_frame a d idle
    exact absurd (by rw [hw]) h

/-- R145: a byte that `place` changes is at one of the four positions. -/
theorem placeQuad_changes {q : Word} {id : BitVec 3} {blk : Block} {n : Fin 16} (hid : Claims.legalId id)
    (h : (placeQuad q id blk)[n] ≠ blk[n]) :
    ∃ j, n = Claims.positions id j ∧ (placeQuad q id blk)[n] = Claims.keyByte q j := by
  simp only [← pos_eq_positions hid, ← quadByte_eq_keyByte]
  by_contra hnot
  refine h (placeQuad_getElem_of_ne q blk fun j hj => hnot ⟨j, hj, ?_⟩)
  rw [hj]
  exact placeQuad_getElem_pos q id blk j

/-- R148: among the simple commands PLACE alone writes KEY. -/
theorem effectOf_key {i : Instr} (hi : i ≠ .place) (s : State) : (effectOf i s).key = s.key := by
  cases i with
  | place => exact absurd rfl hi
  | vclr arg => rcases onSlot_cases arg clearSlot s with h | ⟨_, _, h⟩ <;> simp [effectOf, h, clearSlot]
  | vflip arg => rcases onSlot_cases arg flipSlot s with h | ⟨_, _, h⟩ <;> simp [effectOf, h, flipSlot]
  | vtest arg => rcases onSlot_cases arg testSlot s with h | ⟨_, _, h⟩ <;> simp [effectOf, h, testSlot]
  | stest24 arg => rcases onSlot_cases arg (testScratch .w24) s with h | ⟨_, _, h⟩ <;> simp [effectOf, h, testScratch]
  | stest16 arg => rcases onSlot_cases arg (testScratch .w16) s with h | ⟨_, _, h⟩ <;> simp [effectOf, h, testScratch]
  | stest8 arg => rcases onSlot_cases arg (testScratch .w8) s with h | ⟨_, _, h⟩ <;> simp [effectOf, h, testScratch]
  | tsum arg => rcases onSlot_cases arg sumSlot s with h | ⟨_, _, h⟩ <;> simp [effectOf, h, sumSlot]
  | red1 x | red2 x | red3 x => exact setValid_key _ _ _
  | nop | extract _ | zchk _ | search | resume | verify | abort => rfl

/-- Settles O48: PLACE, the end of a search that found its quadruple, and host writes. -/
theorem keyBytesChangeOnlyByPlacementOrHost : Obligations.KeyBytesChangeOnlyByPlacementOrHost := by
  intro s t n hstep hreset hne
  obtain ⟨u, move, rfl⟩ := move_of_step hstep
  rw [endTurn_key] at hne ⊢
  cases move with
  | rest | read => exact absurd rfl hne
  | @execute i turn exec latched =>
    by_cases hi : i = .place
    · subst hi
      exact .inl ⟨.inl ⟨⟨engineNext_actor turn, exec⟩, latched⟩, fun hid => placeQuad_changes hid hne⟩
    · exact absurd (by rw [finish_key, effectOf_key hi]) hne
  | control turn _ row =>
    cases row with
    | found phase zero only =>
      exact .inl ⟨.inr ⟨⟨engineNext_actor turn, phase⟩, only, rfl⟩, fun hid => placeQuad_changes hid hne⟩
    | abort | pair | k3 | k4 | candidate | nextK5 | noCandidate | s1 | s2 | s3 | verified | nextK5v | unverified | discard
    | exhausted | advance => exact absurd rfl hne
  | @register a d rest turn =>
    obtain ⟨hp, rfl⟩ := hostWrite_key hne
    exact .inr ⟨hp, d, rest, turn⟩
  | refuse => exact absurd (by rw [raise_key]) hne
  | request => exact absurd (by rw [requestAbort_key]) hne
  | @accept w i =>
    obtain ⟨_, _, _, _, _, _, _, _, _, ha⟩ := accepted_frame i w s
    exact absurd (by rw [ha]) hne
  | reset turn => exact absurd turn (hreset _)

/-! ### The model's stops -/

/-- R221 to R224: a meaning answers everywhere but in an EXEC step. -/
theorem exec_answers (i : Instr) {s : State} (h : ¬Claims.engineExec s) : ∃ t, exec i s = .next t := by
  cases ha : actor s with
  | host =>
    by_cases hi : i = .abort
    · subst hi
      exact ⟨_, exec_abort_host ha⟩
    · exact ⟨_, exec_host hi ha⟩
  | engine =>
    by_cases hp : s.phase = .idle
    · exact ⟨_, exec_engine_idle i ha hp⟩
    · exact ⟨_, exec_engine_controller i ha hp fun he => h ⟨ha, he⟩⟩

/-- R221: an EXEC step of SEARCH, RESUME or VERIFY. -/
theorem exec_search_fault_iff {i : Instr} (hi : isSimple i = false) (s : State) (r : Fault) :
    exec i s = .fault r ↔ Claims.engineExec s ∧ r = .noExecStep := by
  by_cases h : Claims.engineExec s
  · rw [exec_engine_exec_search hi h.1 h.2, Host.Outcome.fault.injEq, eq_comm, and_iff_right h]
  · obtain ⟨t, ht⟩ := exec_answers i h
    simp [ht, h]

/-- R223: an EXEC step of a simple command. -/
theorem exec_simple_fault_iff {i : Instr} (hi : isSimple i = true) (s : State) (r : Fault) :
    exec i s = .fault r ↔ Claims.engineExec s ∧ ∃ e, Claims.firstError i s e ∧ r = .precondition e := by
  by_cases h : Claims.engineExec s
  · rw [exec_engine_exec hi h.1 h.2, simpleExec, and_iff_right h]
    simp only [← acceptanceFailing_eq_some_iff]
    cases acceptanceFailing i s with
    | none => simp
    | some e => simp [eq_comm]
  · obtain ⟨t, ht⟩ := exec_answers i h
    simp [ht, h]

theorem exec_not_refused (i : Instr) (s : State) (r : Refusal) : exec i s ≠ .refused r := by
  by_cases h : Claims.engineExec s
  · cases hi : isSimple i with
    | false => simp [exec_engine_exec_search hi h.1 h.2]
    | true =>
      rw [exec_engine_exec hi h.1 h.2, simpleExec]
      cases acceptanceFailing i s <;> nofun
  · obtain ⟨t, ht⟩ := exec_answers i h
    simp [ht]

/-- R22: when the next turn is not the engine's the step answers. -/
theorem step_answers {s : State} (h : ¬Claims.engineNext s) : ∃ t, step s = .next t := by
  suffices hmove : ∃ u, Move s u by
    obtain ⟨u, move⟩ := hmove
    exact ⟨_, step_of_move move⟩
  rcases turn_cases s with ⟨turn, -⟩ | ⟨a, rest, turn, -⟩ | ⟨a, d, rest, turn, -⟩ | ⟨rest, turn, -⟩
  · exact absurd turn h
  · exact ⟨_, .read turn⟩
  · obtain ⟨u, -, move⟩ := hostWriteTurn_move turn
    exact ⟨u, move⟩
  · exact ⟨_, .reset turn⟩

/-- R22: a step is over when its turn is. -/
theorem mapNext_eq_fault_iff {f : State → State} {x : Result} {r : Fault} : mapNext f x = .fault r ↔ x = .fault r := by
  cases x <;> simp [mapNext]

theorem step_of_engineNext {s : State} (turn : Claims.engineNext s) : step s = mapNext endTurn (engineTurn s) := by
  rw [step, takeTurn_of_engineNext turn]

theorem step_fault_iff (s : State) (r : Fault) : step s = .fault r ↔ Claims.engineNext s ∧ s.phase ≠ .idle ∧
    ((decode s.cmdLatch = none ∧ r = .latchIllegal) ∨ ∃ i, decode s.cmdLatch = some i ∧ exec i s = .fault r) := by
  by_cases turn : Claims.engineNext s
  · rw [step_of_engineNext turn, mapNext_eq_fault_iff, and_iff_right turn]
    by_cases idle : s.phase = .idle
    · simp [engineTurn_idle idle, idle]
    · rw [and_iff_right idle]
      cases hd : decode s.cmdLatch with
      | none => simp [engineTurn_of_illegal idle hd, eq_comm]
      | some i => simp [engineTurn_of_decode idle hd]
  · obtain ⟨t, ht⟩ := step_answers turn
    simp [ht, turn]

theorem step_not_refused (s : State) (r : Refusal) : step s ≠ .refused r := by
  by_cases turn : Claims.engineNext s
  · rw [step_of_engineNext turn]
    by_cases idle : s.phase = .idle
    · simp [engineTurn_idle idle]
    · cases hd : decode s.cmdLatch with
      | none => simp [engineTurn_of_illegal idle hd, mapNext]
      | some i =>
        have hexec := exec_not_refused i s
        rw [engineTurn_of_decode idle hd]
        cases hx : exec i s with
        | next t => nofun
        | fault e => nofun
        | refused r' => exact absurd hx (hexec r')
  · obtain ⟨t, ht⟩ := step_answers turn
    simp [ht]

/-- Settles O56: where a meaning stops, where a step stops, and that neither is refused. -/
theorem engineStopsOnlyOutsideTheRules : Obligations.EngineStopsOnlyOutsideTheRules := fun s => by
  refine ⟨fun i hi => ?_, fun i hsearch hresume hverify => ?_, step_fault_iff s, fun i => exec_not_refused i s,
    step_not_refused s⟩
  · refine exec_search_fault_iff ?_ s
    rcases hi with rfl | rfl | rfl <;> rfl
  · refine exec_simple_fault_iff ?_ s
    cases i with
    | search => exact absurd rfl hsearch
    | resume => exact absurd rfl hresume
    | verify => exact absurd rfl hverify
    | _ => rfl

end Sys2Proof.Machine
end


section
/-! The registers (10_state.md section 3, 60_exceptions.md, 70_reset_and_hazards.md): what a host read returns lane by lane, what
a host write changes and reads back, the interrupt output and the reset values. -/

namespace Sys2Proof.Machine

theorem getLsbD_ofBool_zero (b : Bool) : (BitVec.ofBool b).getLsbD 0 = b := by
  cases b <;> rfl

theorem extractLsb'_ctrlWord (s : State) : (ctrlWord s)[0] = s.ieDone ∧ (ctrlWord s)[1] = s.ieErr ∧
    (ctrlWord s).extractLsb' 2 30 = 0#30 := by
  unfold ctrlWord
  refine ⟨?_, ?_, ?_⟩
  · simp only [← BitVec.getLsbD_eq_getElem, BitVec.getLsbD_append, Nat.reduceLT, ↓reduceIte, getLsbD_ofBool_zero]
  · simp only [← BitVec.getLsbD_eq_getElem, BitVec.getLsbD_append, Nat.reduceLT, ↓reduceIte, Nat.reduceSub, getLsbD_ofBool_zero]
  · simp (disch := decide) only [BitVec.extractLsb'_append_eq_of_le, Nat.reduceSub, BitVec.extractLsb'_eq_self]

theorem extractLsb'_cfgWord (s : State) : (cfgWord s).extractLsb' 0 3 = s.configId ∧ (cfgWord s).extractLsb' 3 5 = 0#5 ∧
    (cfgWord s).extractLsb' 8 8 = s.tselA ∧ (cfgWord s).extractLsb' 16 8 = s.tselB ∧ (cfgWord s).extractLsb' 24 8 = 0#8 := by
  unfold cfgWord
  simp (disch := decide) only [BitVec.extractLsb'_append_eq_of_le, BitVec.extractLsb'_append_eq_of_add_le, Nat.reduceSub,
    BitVec.extractLsb'_eq_self, and_self]

theorem extractLsb'_k5rWord (s : State) : (k5rWord s).extractLsb' 0 8 = s.k5 ∧ (k5rWord s).extractLsb' 8 8 = s.k5c ∧
    (k5rWord s).extractLsb' 16 8 = s.k5v ∧ (k5rWord s).extractLsb' 24 8 = 0#8 := by
  unfold k5rWord
  simp (disch := decide) only [BitVec.extractLsb'_append_eq_of_le, BitVec.extractLsb'_append_eq_of_add_le, Nat.reduceSub,
    BitVec.extractLsb'_eq_self, and_self]

theorem extractLsb'_blockWord (blk : Block) (n m : Fin 4) :
    (blockWord blk n).extractLsb' (8 * m.val) 8 = blk[4 * n.val + m.val] := by
  unfold blockWord
  match m with
  | 0 | 1 | 2 | 3 =>
    simp (disch := decide) only [BitVec.extractLsb'_append_eq_of_le, BitVec.extractLsb'_append_eq_of_add_le]
    exact BitVec.extractLsb'_eq_self

theorem hostRead_ct (n : Fin 4) (s : State) : hostRead (BitVec.ofNat 5 (8 + n.val)) s = blockWord s.ct n := by
  match n with
  | 0 | 1 | 2 | 3 => rfl

theorem hostRead_key (n : Fin 4) (s : State) : hostRead (BitVec.ofNat 5 (12 + n.val)) s = blockWord s.key n := by
  match n with
  | 0 | 1 | 2 | 3 => rfl

/-- Settles O12: a read only fills `rdata`, and each register word is put together from its lanes. -/
theorem hostReadHasNoSideEffect : Obligations.HostReadHasNoSideEffect := by
  intro s
  refine ⟨fun a rest turn => ?_, rfl, extractLsb'_ctrlWord s, extractLsb'_cfgWord s, rfl, extractLsb'_k5rWord s, rfl, rfl,
    fun n m => ?_, rfl, rfl⟩
  · rw [step_read turn]
    exact congrArg _ (endTurn_of_cons turn)
  · rw [hostRead_ct, hostRead_key]
    exact ⟨extractLsb'_blockWord _ n m, extractLsb'_blockWord _ n m⟩

theorem busy_iff (s : State) : busy s = true ↔ s.phase ≠ .idle := by
  simp [busy]

theorem errField_toNat (s : State) : (errField s).toNat = Claims.errorNumber s.err := by
  unfold errField
  cases s.err with
  | none => rfl
  | some e => cases e <;> rfl

theorem phaseCode_toNat (p : Phase) : (phaseCode p).toNat = Claims.phaseNumber p := by
  cases p <;> rfl

theorem getLsbD_vinitField (s : State) (k : Slot) : (vinitField s).getLsbD k.val = s.vinit[k] := by
  unfold vinitField
  match k with
  | 0 | 1 | 2 | 3 | 4 | 5 =>
    simp only [BitVec.getLsbD_append]
    exact getLsbD_ofBool_zero _

theorem getLsbD_validField (v : Valid) :
    (validField v).getLsbD 0 = v.sv24 ∧ (validField v).getLsbD 1 = v.sv16 ∧ (validField v).getLsbD 2 = v.sv8 := by
  simp only [validField, BitVec.getLsbD_append, Nat.reduceLT, ↓reduceIte, Nat.reduceSub, getLsbD_ofBool_zero, and_self]

/-- R35: bits 16 to 21 of the STATUS word are the VINIT field. -/
theorem getLsbD_statusWord_vinit (s : State) (k : Slot) : (statusWord s).getLsbD (16 + k.val) = s.vinit[k] := by
  rw [← getLsbD_vinitField]
  unfold statusWord
  match k with
  | 0 | 1 | 2 | 3 | 4 | 5 =>
    simp only [BitVec.getLsbD_append]
    rfl

/-- R35: the single bits of the STATUS word below VINIT. -/
theorem getLsbD_statusWord_low (s : State) :
    (statusWord s).getLsbD 0 = busy s ∧ (statusWord s).getLsbD 1 = s.done ∧ (statusWord s).getLsbD 2 = s.found ∧
    (statusWord s).getLsbD 3 = s.aborted ∧ (statusWord s).getLsbD 4 = s.abortReq ∧ (statusWord s).getLsbD 5 = s.vonly := by
  simp only [statusWord, BitVec.getLsbD_append, Nat.reduceLT, ↓reduceIte, Nat.reduceSub, getLsbD_ofBool_zero, and_self]

/-- R35: the valid bits in the STATUS word. -/
theorem getLsbD_statusWord_valid (s : State) :
    (statusWord s).getLsbD 22 = s.validA.sv24 ∧ (statusWord s).getLsbD 23 = s.validA.sv16 ∧
    (statusWord s).getLsbD 24 = s.validA.sv8 ∧ (statusWord s).getLsbD 25 = s.validB.sv24 ∧
    (statusWord s).getLsbD 26 = s.validB.sv16 ∧ (statusWord s).getLsbD 27 = s.validB.sv8 := by
  obtain ⟨a24, a16, a8⟩ := getLsbD_validField s.validA
  obtain ⟨b24, b16, b8⟩ := getLsbD_validField s.validB
  simp only [statusWord, BitVec.getLsbD_append, Nat.reduceLT, ↓reduceIte, Nat.reduceSub, a24, a16, a8, b24, b16, b8, and_self]

/-- R35: the wider fields of the STATUS word and its reserved bits. -/
theorem extractLsb'_statusWord (s : State) :
    (statusWord s).extractLsb' 6 2 = 0#2 ∧ (statusWord s).extractLsb' 8 4 = errField s ∧
    (statusWord s).extractLsb' 12 4 = phaseCode s.phase ∧ (statusWord s).extractLsb' 28 4 = 0#4 := by
  unfold statusWord
  simp (disch := decide) only [BitVec.extractLsb'_append_eq_of_le, BitVec.extractLsb'_append_eq_of_add_le, Nat.reduceSub,
    BitVec.extractLsb'_eq_self, and_self]

/-- Settles O13: each field is one of the pieces the word is put together from. -/
theorem statusWordFields : Obligations.StatusWordFields := by
  intro s w
  obtain ⟨hbusy, hdone, hfound, haborted, hreq, honly⟩ := getLsbD_statusWord_low s
  obtain ⟨a24, a16, a8, b24, b16, b8⟩ := getLsbD_statusWord_valid s
  obtain ⟨hlow, herr, hphase, hhigh⟩ := extractLsb'_statusWord s
  exact ⟨(congrArg (· = true) hbusy).to_iff.trans (busy_iff s), hdone, hfound, haborted, hreq, honly, hlow,
    (congrArg BitVec.toNat herr).trans (errField_toNat s), (congrArg BitVec.toNat hphase).trans (phaseCode_toNat _),
    getLsbD_statusWord_vinit s, a24, a16, a8, b24, b16, b8, hhigh⟩

/-- Settles O16: the registers hold the enables, DONE and a code that is 0 only when no error is recorded. -/
theorem interruptOutputIsAFunctionOfTheRegisters : Obligations.InterruptOutputIsAFunctionOfTheRegisters := by
  refine ⟨fun s => ?_, rfl⟩
  obtain ⟨_, done, _, _, _, _, _, code, _⟩ := statusWordFields s
  obtain ⟨ie0, ie1, _⟩ := extractLsb'_ctrlWord s
  have error : s.err.isSome = ((hostRead 1#5 s).extractLsb' 8 4 != 0#4) := by
    rw [Bool.eq_iff_iff, bne_iff_ne, ne_eq, ← BitVec.toNat_inj, code]
    cases s.err with
    | none => decide
    | some e => cases e <;> decide
  rw [done, ← error]
  exact congrArg₂ _ (congrArg₂ _ ie0.symm rfl) (congrArg₂ _ ie1.symm rfl)

/-- R60: what the registers read after reset. -/
theorem hostRead_reset (a : BitVec 5) : hostRead a State.reset = if a = 3#5 then 0x00E4E400#32 else 0#32 := by
  revert a; decide

/-- Settles O60: the registers after reset are read address by address, and the pulse keeps only the turns and `rdata`. -/
theorem resetRestoresTheResetValues : Obligations.ResetRestoresTheResetValues := by
  refine ⟨rfl, hostRead_reset, fun s rest turn => ?_⟩
  exact (step_of_move (.reset turn)).trans (congrArg _ (endTurn_of_cons (t := .reset) turn))

theorem statusWrite_eq (d : Word) (s : State) :
    statusWrite d s = { s with done := s.done && !d[1], err := if d[8] then none else s.err,
                               errinfo := if d[8] then 0#32 else s.errinfo } := by
  unfold statusWrite
  cases d[1] <;> cases d[8] <;> simp [clearError]

/-- R37: the bits of CTRL that a write stores. -/
theorem ctrlWord_stored (d : Word) :
    (0#30 ++ BitVec.ofBool d[1] ++ BitVec.ofBool d[0] : Word) = d &&& 0x00000003#32 := by
  have mask : ∀ k : Fin 32, (0x00000003#32).getLsbD k = decide (k.val < 2) := by decide
  apply BitVec.eq_of_getLsbD_eq
  intro k hk
  rw [BitVec.getLsbD_and, mask ⟨k, hk⟩]
  simp only [BitVec.getLsbD_append]
  grind

/-- R38: the fields of CFG that a write stores. -/
theorem cfgWord_stored (d : Word) :
    (0#8 ++ d.extractLsb' 16 8 ++ d.extractLsb' 8 8 ++ 0#5 ++ d.extractLsb' 0 3 : Word) = d &&& 0x00FFFF07#32 := by
  have mask : ∀ k : Fin 32, (0x00FFFF07#32).getLsbD k = decide (k.val < 3 ∨ 8 ≤ k.val ∧ k.val < 24) := by decide
  apply BitVec.eq_of_getLsbD_eq
  intro k hk
  rw [BitVec.getLsbD_and, mask ⟨k, hk⟩]
  simp only [BitVec.getLsbD_append, BitVec.getLsbD_extractLsb', BitVec.getLsbD_zero]
  grind

/-- R40: a write to K5R stores the low byte and keeps the two others. -/
theorem k5rWord_stored (d : Word) (v c k : Byte) :
    (0#8 ++ v ++ c ++ d.extractLsb' 0 8 : Word) = ((0#8 ++ v ++ c ++ k : Word) &&& 0x00FFFF00#32) ||| (d &&& 0x000000FF#32) := by
  have keep : ∀ k : Fin 32, (0x00FFFF00#32).getLsbD k = decide (8 ≤ k.val ∧ k.val < 24) := by decide
  have mask : ∀ k : Fin 32, (0x000000FF#32).getLsbD k = decide (k.val < 8) := by decide
  apply BitVec.eq_of_getLsbD_eq
  intro k hk
  rw [BitVec.getLsbD_or, BitVec.getLsbD_and, BitVec.getLsbD_and, keep ⟨k, hk⟩, mask ⟨k, hk⟩]
  simp only [BitVec.getLsbD_append, BitVec.getLsbD_extractLsb', BitVec.getLsbD_zero]
  grind

/-- The step of a write to a register other than CMD, given the state it leaves. -/
theorem step_write {s u : State} {a : BitVec 5} {d : Word} {rest : List Turn} (turn : s.turns = .write a d :: rest)
    (reg : regAt a ≠ .cmd) (stored : hostWrite a d s = u) (kept : u.turns = s.turns) :
    step s = .next { u with turns := rest } := by
  rw [step_write_register reg turn, stored, endTurn_of_cons (kept.trans turn)]

/-- Settles O14: the state each write leaves, and the word read back from the fields it stored. -/
theorem registerWritesReadBack : Obligations.RegisterWritesReadBack := by
  intro s d rest
  refine ⟨fun turn => step_write turn (by decide) (statusWrite_eq d s) rfl, fun turn => ?_, fun turn idle => ?_,
    fun turn idle => ?_, fun turn idle => ?_, fun turn idle => ?_⟩
  · exact ⟨_, step_write turn (by decide) rfl rfl, ctrlWord_stored d, rfl⟩
  · have stored : hostWrite 3#5 d s = { s with configId := d.extractLsb' 0 3, tselA := d.extractLsb' 8 8,
                                               tselB := d.extractLsb' 16 8 } :=
      idleWrite_idle idle 3#5 fun t => { t with configId := d.extractLsb' 0 3, tselA := d.extractLsb' 8 8,
                                                tselB := d.extractLsb' 16 8 }
    exact ⟨_, step_write turn (by decide) stored rfl, cfgWord_stored d, rfl⟩
  · have stored : hostWrite 4#5 d s = { s with kg := d } := idleWrite_idle idle 4#5 fun t => { t with kg := d }
    exact ⟨step_write turn (by decide) stored rfl, rfl⟩
  · have stored : hostWrite 5#5 d s = { s with k5 := d.extractLsb' 0 8 } :=
      idleWrite_idle idle 5#5 fun t => { t with k5 := d.extractLsb' 0 8 }
    exact ⟨_, step_write turn (by decide) stored rfl, k5rWord_stored d s.k5v s.k5c s.k5, rfl⟩
  · have stored : hostWrite 6#5 d s = { s with idx := d } := idleWrite_idle idle 6#5 fun t => { t with idx := d }
    exact ⟨step_write turn (by decide) stored rfl, rfl⟩

/-- R41: a write to a word of CT while idle. -/
theorem hostWrite_ct_idle {a : BitVec 5} {m : Fin 4} (hr : regAt a = .ct m) {s : State} (idle : s.phase = .idle) (d : Word) :
    hostWrite a d s = { s with ct := setBlockWord s.ct m d } := by
  rw [hostWrite, hr]
  exact idleWrite_idle idle a fun t => { t with ct := setBlockWord t.ct m d }

theorem regAt_ct (n : Fin 4) : regAt (BitVec.ofNat 5 (8 + n.val)) = .ct n := by
  revert n; decide

theorem regAt_key (n : Fin 4) : regAt (BitVec.ofNat 5 (12 + n.val)) = .key n := by
  revert n; decide

/-- R41, R85: the word that was stored is read back. -/
theorem blockWord_setBlockWord (blk : Block) (n : Fin 4) (d : Word) : blockWord (setBlockWord blk n d) n = d := by
  unfold blockWord setBlockWord
  simp only [Vector.getElem_set_self, Vector.getElem_set_ne, ne_eq, Nat.add_eq_left, Nat.add_left_cancel_iff, Nat.reduceEqDiff,
    not_false_eq_true, OfNat.ofNat_ne_zero, one_ne_zero]
  exact quadByte_append d

/-- Settles O15: the word's four bytes are stored and read back, the others are kept. -/
theorem blockWordWrites : Obligations.BlockWordWrites := by
  refine fun s n d rest idle => ⟨fun turn => ?_, fun turn => ?_⟩
  · have reg := regAt_ct n
    refine ⟨_, step_write turn (by rw [reg]; nofun) (hostWrite_ct_idle reg idle d) rfl, rfl, ?_,
      fun m => setBlockWord_getElem s.ct n d m⟩
    rw [hostRead_ct]
    exact blockWord_setBlockWord s.ct n d
  · have reg := regAt_key n
    refine ⟨_, step_write turn (by rw [reg]; nofun) (hostWrite_key_idle reg idle d) rfl, rfl, ?_,
      fun m => setBlockWord_getElem s.key n d m⟩
    rw [hostRead_key]
    exact blockWord_setBlockWord s.key n d

end Sys2Proof.Machine
end


section
/-! The closed forms of the three stages (42_reduce.md R182, R187, R192). Every stage takes an index of two bytes and `l` lower bits
to an index of one byte and the same lower bits; what it leaves at an index is the parity of the pairs of bytes sent there. -/

namespace Sys2Proof.Machine

/-! ### Indices as words put together -/

theorem toNat_append_eq {n m : Nat} (x : BitVec n) (y : BitVec m) : (x ++ y).toNat = x.toNat * 2 ^ m + y.toNat := by
  rw [BitVec.toNat_append, ← Nat.shiftLeft_add_eq_or_of_lt y.isLt, Nat.shiftLeft_eq]

theorem append_inj {n m : Nat} {x x' : BitVec n} {y y' : BitVec m} (h : x ++ y = x' ++ y') : x = x' ∧ y = y' :=
  ⟨by simpa only [BitVec.extractLsb'_append_eq_left] using congrArg (BitVec.extractLsb' m n) h,
    by simpa only [BitVec.extractLsb'_append_eq_right] using congrArg (BitVec.extractLsb' 0 m) h⟩

theorem exists_append {n m : Nat} (i : BitVec (n + m)) : ∃ (x : BitVec n) (y : BitVec m), x ++ y = i := by
  refine ⟨i.extractLsb' m n, i.extractLsb' 0 m, ?_⟩
  ext k hk
  simp

/-! ### Parities -/

/-- An injective map carries a parity to its image. -/
theorem oddly_image_iff {α β : Type} {p : α → Prop} {q : β → Prop} {g : α → β} (inj : Function.Injective g)
    (image : ∀ b, q b ↔ ∃ a, p a ∧ g a = b) : Claims.oddly q ↔ Claims.oddly p := by
  have himage : {b | q b} = g '' {a | p a} := Set.ext image
  rw [Claims.oddly, himage, Set.ncard_image_of_injective _ inj, Claims.oddly]

/-- An equation that gives the first byte of a pair leaves the second to be counted. -/
theorem oddly_solve (g : Byte → Byte) (z : Byte) (p : Byte → Byte → Prop) :
    (Claims.oddly fun q : Byte × Byte => q.1 ^^^ g q.2 = z ∧ p q.1 q.2) ↔ Claims.oddly fun c => p (z ^^^ g c) c := by
  refine oddly_image_iff (g := fun c => (z ^^^ g c, c)) (fun _ _ h => (Prod.mk.inj h).2) ?_
  rintro ⟨a, b⟩
  have solve : a ^^^ g b = z ↔ z ^^^ g b = a :=
    ⟨fun h => by rw [← h, BitVec.xor_assoc, BitVec.xor_self, BitVec.xor_zero],
      fun h => by rw [← h, BitVec.xor_assoc, BitVec.xor_self, BitVec.xor_zero]⟩
  constructor
  · rintro ⟨h, hp⟩
    have ha := solve.1 h
    exact ⟨b, ha ▸ hp, Prod.ext ha rfl⟩
  · rintro ⟨c, hp, h⟩
    obtain ⟨ha, rfl⟩ := Prod.mk.inj h
    exact ⟨solve.2 ha, ha ▸ hp⟩

/-! ### One stage -/

/-- What a stage leaves, when it folds the two highest bytes of an index into one and keeps the `l` bits below them. -/
theorem memRead_accumulate_pairs {l : Nat} {v : Memory} (hv : Memory.wf (8 + (8 + l)) v) {f : Nat → Nat} {g : Byte → Byte → Byte}
    (hf : ∀ a b (t : BitVec l), f (a ++ (b ++ t)).toNat = (g a b ++ t).toNat) (x : Byte) (t : BitVec l) :
    memRead (accumulate f v) (x.toNat * 2 ^ l + t.toNat) = true ↔
      Claims.oddly fun p : Byte × Byte => g p.1 p.2 = x ∧
        memRead v (p.1.toNat * 2 ^ (8 + l) + p.2.toNat * 2 ^ l + t.toNat) = true := by
  simp only [Nat.add_assoc, ← toNat_append_eq]
  rw [memRead_accumulate_iff_oddly hv]
  refine oddly_image_iff (g := fun p : Byte × Byte => p.1 ++ (p.2 ++ t)) (fun p q h => ?_) fun i => ?_
  · obtain ⟨h1, h2⟩ := append_inj h
    exact Prod.ext h1 (append_inj h2).1
  · constructor
    · rintro ⟨hi, hv⟩
      obtain ⟨a, y, rfl⟩ := exists_append i
      obtain ⟨b, u, rfl⟩ := exists_append y
      rw [hf] at hi
      obtain ⟨hg, rfl⟩ := append_inj (BitVec.eq_of_toNat_eq hi)
      exact ⟨(a, b), ⟨hg, hv⟩, rfl⟩
    · rintro ⟨⟨a, b⟩, ⟨rfl, hv⟩, rfl⟩
      exact ⟨hf a b t, hv⟩

theorem fold1_append (k1 k2 : Byte) (ta tb : Byte → Byte) (a b : Byte) (t : BitVec 16) :
    fold1 k1 k2 ta tb (a ++ (b ++ t)).toNat = ((ta (a ^^^ k1) ^^^ tb (b ^^^ k2)) ++ t).toNat := by
  have ha : BitVec.extractLsb' (n := 32) 24 8 (a ++ (b ++ t)) = a := BitVec.extractLsb'_append_eq_left
  have hb : BitVec.extractLsb' (n := 32) 16 8 (a ++ (b ++ t)) = b :=
    (BitVec.extractLsb'_append_eq_of_add_le (by decide)).trans BitVec.extractLsb'_append_eq_left
  have ht : BitVec.extractLsb' (n := 32) 0 16 (a ++ (b ++ t)) = t :=
    (BitVec.extractLsb'_append_eq_of_add_le (by decide)).trans BitVec.extractLsb'_append_eq_right
  simp only [fold1, BitVec.ofNat_toNat, BitVec.setWidth_eq, ha, hb, ht]

/-- Settles O29: `a` and `b` fold into `x`, and the 16 bits of `t` are kept. -/
theorem reduce1ClosedForm : Obligations.Reduce1ClosedForm := fun v k1 k2 ta tb hv =>
  ⟨reduce1_wf v k1 k2 ta tb, memRead_accumulate_pairs hv (fold1_append k1 k2 ta tb)⟩

/-- Settles O30: the pairs of the first shape are given by their second byte. -/
theorem reduce2ClosedForm : Obligations.Reduce2ClosedForm := fun v k3 tc hv => by
  refine ⟨reduce2_wf v k3 tc, fun y d => ?_⟩
  have closed := memRead_accumulate_pairs hv (fold2_append k3 tc) y d
  have solved := oddly_solve (fun c => tc (c ^^^ k3)) y fun x c =>
    memRead v (x.toNat * 2 ^ 16 + c.toNat * 2 ^ 8 + d.toNat) = true
  rw [reduce2]
  exact ⟨closed, closed.trans solved⟩

/-- Stage 3 keeps no bits below the byte it leaves. -/
theorem fold3_append_empty (k4 : Byte) (td : Byte → Byte) (y d : Byte) (t : BitVec 0) :
    fold3 k4 td (y ++ (d ++ t)).toNat = ((y ^^^ td (d ^^^ k4)) ++ t).toNat := by
  have empty (x : Byte) : (x ++ t).toNat = x.toNat := by simp
  rw [empty, ← fold3_append, toNat_append_eq, empty, toNat_append_eq]

/-- Settles O31: likewise, with nothing below the two bytes. -/
theorem reduce3ClosedForm : Obligations.Reduce3ClosedForm := fun v k4 td hv => by
  refine ⟨reduce3_wf v k4 td, fun z => ?_⟩
  have closed := memRead_accumulate_pairs hv (fold3_append_empty k4 td) z 0#0
  have solved := oddly_solve (fun d => td (d ^^^ k4)) z fun y d => memRead v (y.toNat * 2 ^ 8 + d.toNat) = true
  simp only [BitVec.toNat_ofNat, Nat.pow_zero, Nat.mul_one, Nat.mod_one, Nat.add_zero] at closed
  rw [reduce3]
  exact ⟨closed, closed.trans solved⟩

end Sys2Proof.Machine
end
